-- ==== Sys2Proof/Word.lean ====
section
/-! DEFINITION. The word types of the machine (spec/00_scope.md R11): 32-bit words, 16-bit parcels, bytes. -/

namespace Sys2Proof

/-- A 32-bit register value, instruction word or address (R8: `XLEN` = 32; R100: 32-bit byte addresses). -/
abbrev Word := BitVec 32

/-- A 16-bit instruction parcel (R170). -/
abbrev Half := BitVec 16

/-- The addressable unit of memory (R100). -/
abbrev Byte := BitVec 8

/-- A general register number, x0 to x31 (R30). -/
abbrev Reg := BitVec 5

/-- The 3-bit register field of the compressed formats, naming x8 to x15 (R178). -/
abbrev CReg := BitVec 3

end Sys2Proof
end

