-- ==== Sys2Proof/Config.lean ====
section
/-! DEFINITION. What an implementation fixes (the parameters of spec/00_scope.md R8 and spec/92_eei_decisions.md)
and the values the spec leaves free. The parameters are plain data that a state carries unchanged (log entry 1);
the free values are constants without a body (log entry 6). -/

namespace Sys2Proof

/-- The three models of the series (R1, parameter `MODEL` of R8). -/
inductive Model where
  | v3a | v3b | v3c
deriving DecidableEq, Repr

/-- What an address range of `MEMMAP` holds (R8, R112, D6). DESIGN CHOICE, log entry 45: there is one kind of memory,
which every access reaches; ROM and flash are in it, so that a store to them changes them. -/
inductive RegionKind where
  /-- byte-addressable main memory, readable, writable and executable -/
  | memory
  /-- a device of the surrounding chip, whose behaviour the spec does not give -/
  | chipDevice
deriving DecidableEq, Repr

/-- One range of the parameter `MEMMAP`: the addresses `base` to `base + size - 1`. -/
structure Region where
  base : Nat
  size : Nat
  kind : RegionKind
deriving DecidableEq, Repr

/-- The width of a data access (R108). -/
inductive Machine.Width where
  | byte | half | word
deriving DecidableEq, Repr

/-- A value that a vendor instruction computes from the general registers, 64 bits wide (R403 speaks of double words
and of products); log entry 43. -/
inductive XwExpr where
  /-- a register, zero-extended -/
  | reg (r : Reg)
  /-- a register, sign-extended -/
  | signedReg (r : Reg)
  | const (v : BitVec 64)
  | add (a b : XwExpr)
  | sub (a b : XwExpr)
  | mul (a b : XwExpr)
  | and (a b : XwExpr)
  | or (a b : XwExpr)
  | xor (a b : XwExpr)
  /-- a left shift by the low six bits of `b` -/
  | shl (a b : XwExpr)
  /-- a logical right shift by the low six bits of `b` -/
  | shr (a b : XwExpr)
deriving DecidableEq, Repr

/-- The meaning a reader may give a vendor word (R401, R403, R404): the kinds of instruction the spec names, as plain
data; log entry 43. -/
inductive XwMeaning where
  /-- the low word of a value to `rd`, as a word extraction (R403) -/
  | compute (rd : Reg) (value : XwExpr)
  /-- a load of a byte, halfword or word, as c.lbu and c.lhu (R401) -/
  | load (w : Machine.Width) (signed : Bool) (rd : Reg) (addr : XwExpr)
  /-- a store of a byte, halfword or word, as c.sb and c.sh (R401) -/
  | store (w : Machine.Width) (addr value : XwExpr)
  /-- a copy of `count` bytes, the lowest address first, as a memory copy (R404) -/
  | copy (dst src count : XwExpr)
deriving DecidableEq, Repr

/-- The parameters the model takes as arguments (the tables of R8 and of spec/92_eei_decisions.md). -/
structure Config where
  /-- `MODEL` -/
  model : Model
  /-- `B_SUBEXTS` (D15): whether Zba is implemented; it counts on V3B and V3C only -/
  zba : Bool
  zbb : Bool
  zbc : Bool
  zbs : Bool
  /-- `RESET_PC` (D4) -/
  resetPc : Word
  /-- `MEMMAP` (D6); the core's own device windows come before it -/
  memmap : List Region
  /-- `IRQ_SOURCES`: bit n set when external interrupt n (16 to 255) is wired -/
  irqWired : BitVec 256
  /-- `MISA_EXT` of V3B and V3C; V3A's is fixed by R41 -/
  misaExt : BitVec 26
  /-- `MIMPID_MINOR`, `MIMPID_MAJOR` of V3B and V3C (R45) -/
  mimpidMinor : BitVec 4
  mimpidMajor : BitVec 4
  /-- `PMP_LOCK_CLEARABLE` (D19) -/
  pmpLockClearable : Bool
  /-- `PMTCFG_IMPLEMENTED` (R497): a part whose version is after 1.0 -/
  pmtcfgImplemented : Bool
  /-- `TRIGGER_CHANNELS` (D38) of V3B and V3C; V3A has none -/
  triggerChannels : Nat
  /-- `DATAADDR`, hartinfo[11:0] (R564) -/
  dataAddr : BitVec 12
  /-- whether a debug host is attached (`EXTERNAL_AGENTS`, D25); without one no debug access has an effect -/
  debugger : Bool
  /-- `XW_DECODE` (R406, D16) of V3B and V3C: the graph of a partial function from the parcels (zero-extended) and
  words of the vendor slots to meanings; a word it does not list is refused -/
  xwDecode : List (Word × XwMeaning)
deriving DecidableEq, Repr

/-- The configuration of `State.reset`: a V3C with every B sub-extension, reset vector 0 and memory at every
address outside the core's devices. DESIGN CHOICE, log entry 1: the spec leaves each of these parameters to the part. -/
def Config.standard : Config where
  model := .v3c
  zba := true
  zbb := true
  zbc := true
  zbs := true
  resetPc := 0
  memmap := [⟨0, 0x100000000, .memory⟩]
  irqWired := BitVec.allOnes 256
  misaExt := 0x0901106#26
  mimpidMinor := 1
  mimpidMajor := 1
  pmpLockClearable := false
  pmtcfgImplemented := true
  triggerChannels := 4
  dataAddr := 0x0F4
  debugger := false
  xwDecode := []

/-- The k-th value the spec leaves free: any word at all. A state counts how many it has used, so that each use
takes a fresh one. No body: no proof can know a value of it (log entry 6). -/
opaque Config.freeWord : Nat → Word

/-- Whether a trigger with MATCH = 1 whose `tdata2` has its lowest 0 bit at 31, or none, matches an address
(`tdata2`, address): spec/95_test_vectors.md V71 says that this is not defined (log entry 26). No body. -/
opaque Config.undefinedTrigger : Word → Word → Bool

end Sys2Proof
end

