-- ==== Sys2Proof/Machine/State.lean ====
section
/-! DEFINITION. The machine's state as plain data (spec/10_state.md, and the device registers of spec/61_pfic.md and
spec/62_systick_power_debug.md), the reasons a step can stop, and the state after reset (R68). -/

namespace Sys2Proof.Machine

/-- The privilege mode (R9, R35). -/
inductive Priv where
  | machine | user
deriving DecidableEq, Repr

/-- The control and status registers that hold state (R38 to R60). `gintenr` is a window onto `mstatus` (R57);
`marchid`, `mimpid` and `misa` are constants of the configuration (R41, R44, R45). -/
structure Csrs where
  mstatus : Word
  mtvec : Word
  mscratch : Word
  mepc : Word
  mcause : Word
  mtval : Word
  pmpcfg0 : Word
  pmpaddr : Vector (BitVec 30) 4
  tselect : BitVec 2
  tdata1 : Vector Word 4
  tdata2 : Vector Word 4
  dcsr : Word
  dpc : Word
  dscratch0 : Word
  dscratch1 : Word
  intsyscr : Word
  corecfgr : Word
  /-- bits 30 (NEST_OV) and 1 to 0 (NEST_LVL); NEST_STA is computed from the nesting level (R60, R64) -/
  inestcr : Word
deriving DecidableEq, Repr

/-- The interrupt controller (R470, R472). -/
structure Pfic where
  /-- the enable bits of the programmable numbers; the fixed slots are always enabled (R474) -/
  en : BitVec 256
  /-- the latched pending bits; a request that is still asserted counts as pending too (R475, R486, R540) -/
  pend : BitVec 256
  act : BitVec 256
  prio : Vector Byte 256
  ithresdr : Byte
  vtfbaddrr : Word
  cfgr : BitVec 2
  vtfidr : Word
  vtfaddrr : Vector Word 4
  sctlr : Word
deriving DecidableEq, Repr

/-- The system timer (R530 to R537). -/
structure SysTick where
  ctlr : Word
  sr : Word
  cntl : Word
  cnth : Word
  cmpl : Word
  cmph : Word
  /-- the state of the HCLK/8 divider (R530; log entry 20) -/
  div : BitVec 3
deriving DecidableEq, Repr

/-- Whether the core sleeps, in which depth and by which method (R65, R550, R551). -/
inductive Sleep where
  | awake
  | asleep (deep : Bool) (wfe : Bool)
deriving DecidableEq, Repr

/-- What the core does as the debug module sees it (R67, R562, R567, R570). -/
inductive DebugState where
  | running
  | halted
  /-- executing the program buffer: `pc` is a byte offset in it (R569; log entry 28) -/
  | progbuf
  /-- held in reset by `dmcontrol.ndmreset` (R562) -/
  | heldInReset
deriving DecidableEq, Repr

/-- The debug module's registers (R560 to R569). -/
structure DebugModule where
  data0 : Word
  data1 : Word
  haltreq : Bool
  ndmreset : Bool
  dmactive : Bool
  havereset : Bool
  resumeack : Bool
  cmderr : BitVec 3
  command : Word
  autoexecProgbuf : BitVec 8
  autoexecData : BitVec 2
  progbuf : Vector Word 8
  /-- what the host's last read returned: the model's own field (log entry 27) -/
  readout : Word
deriving DecidableEq, Repr

/-- One access of the debug host to a debug-module register (R560). -/
inductive HostAccess where
  | read (addr : BitVec 7)
  | write (addr : BitVec 7) (value : Word)
deriving DecidableEq, Repr

/-- What the world outside the core does before one step (`EXTERNAL_AGENTS` of R8; R487, R537, R553; log entry 7). -/
structure Input where
  /-- periods of HCLK that pass (R537, D32) -/
  hclk : Nat
  /-- external interrupt numbers that request (R487) -/
  irq : BitVec 256
  /-- a chip-level NMI request (D39) -/
  nmi : Bool
  /-- a chip-level event (R553) -/
  event : Bool
  /-- a core status fault (R59, D39) -/
  statusFault : Bool
  /-- bytes another bus master writes (R121) -/
  dma : List Host.Cell
  /-- a register access of the debug host (R576) -/
  dmi : Option HostAccess
deriving DecidableEq, Repr

/-- The load reservation of `lr.w` (R66, R301). -/
structure Reservation where
  addr : Word
  /-- false once the spec no longer defines whether the reservation is valid (log entry 9) -/
  certain : Bool
deriving DecidableEq, Repr

/-- The 16 caller-saved registers that one frame of the hardware stack holds (R62, R445). -/
abbrev HpeFrame := Vector Word 16

/-- One place of the hardware stack (R62, R446; log entry 16). -/
inductive HpeSlot where
  /-- no frame: its handler does not run, or was entered with the stack off -/
  | empty
  | saved (frame : HpeFrame)
  /-- the enable has changed since its handler was entered: what a pop gives is unspecified -/
  | unbalanced
deriving DecidableEq, Repr

/-- The machine's state. -/
structure State where
  /-- the parameters, never changed by a step (R8; log entry 1) -/
  cfg : Config
  /-- x0 to x31; x0 is read as zero and never written (R30, R31) -/
  regs : Vector Word 32
  pc : Word
  priv : Priv
  csr : Csrs
  /-- memory, one entry a byte that is not what an unlisted byte reads as, addresses rising (R100; log entry 5) -/
  mem : List Host.Cell
  /-- what a fetch may still see: earlier values of bytes stored since the last `fence.i` (R124; log entry 10) -/
  stale : List Host.Cell
  resv : Option Reservation
  pfic : Pfic
  stk : SysTick
  /-- the hardware stack: the places of level 1 and of level 2 (R62) -/
  hpe : Vector HpeSlot 2
  /-- the slots of the handlers being run, innermost first; their number is the nesting level (R64) -/
  handlers : List Nat
  sleep : Sleep
  eventLatch : Bool
  /-- `PFIC_GISR.LOCKSTA`: no rule sets it (R67, R458; log entry 37) -/
  locked : Bool
  dbg : DebugState
  dm : DebugModule
  /-- what the external agents will do, one entry a step (log entry 7) -/
  inputs : List Input
  /-- how many free values have been used (log entry 6) -/
  freeIndex : Nat
deriving DecidableEq, Repr

/-- Why a run ends in an access error: the state after it is not defined by the spec (R116, R457, D8). Safe: no claim
about the state after it can be proved. -/
inductive Fault where
  /-- exception code 5: a load or `lr.w` that the PMP denies, or from an address that holds nothing (R152, R116) -/
  | loadAccess (addr : Word)
  /-- exception code 7: a store, `sc.w` or AMO that the PMP denies, or at an address that holds nothing (R152, R116) -/
  | storeAccess (addr : Word)
  /-- the hardware's read of a vector-table entry that memory does not back (R431) -/
  | vectorRead (addr : Word)
deriving DecidableEq, Repr

/-- Why the model has no answer. Safe: a refused step proves nothing about the hardware. -/
inductive Refusal where
  /-- an instruction without a meaning yet; no meaning answers it -/
  | notModelled (mnemonic : String)
  /-- a word of the slots that may hold XW or custom instructions, on V3B and V3C (R402, R403; log entry 12) -/
  | vendorEncoding (word : Word)
  /-- an access narrower than a word to a word register of a core device (R473, D24; log entry 21) -/
  | deviceWidth (addr : Word)
  /-- an access to a device of the chip, whose behaviour the spec does not give (D6; log entry 21) -/
  | chipDevice (addr : Word)
  /-- a write of a value the field's table calls reserved (R39, D23, R153; log entry 14) -/
  | reservedValue (csr : BitVec 12)
  /-- a trap entry beyond level 4, or `mret` at level 3 or more (R444, D22; log entry 15) -/
  | nestingOverflow
  /-- software sets the pending bit of the exception slot (R475, D41; log entry 22) -/
  | softwareException
  /-- execution leaves the program buffer (R569; log entry 28) -/
  | programBuffer
deriving DecidableEq, Repr

/-- The outcome of a step of this machine. -/
abbrev Outcome := Host.Outcome State Fault Refusal

/-- The CSRs after reset (R68). Where the source prints X the value is zero (log entry 4). -/
def Csrs.reset : Csrs where
  mstatus := 0
  mtvec := 0
  mscratch := 0
  mepc := 0
  mcause := 0
  mtval := 0
  pmpcfg0 := 0
  pmpaddr := Vector.replicate 4 0
  tselect := 0
  tdata1 := Vector.replicate 4 0x2BE00000
  tdata2 := Vector.replicate 4 0
  dcsr := 0x40000000
  dpc := 0
  dscratch0 := 0
  dscratch1 := 0
  intsyscr := 0xE002
  corecfgr := 1
  inestcr := 0

/-- The interrupt controller after reset (R472). -/
def Pfic.reset : Pfic where
  en := 0
  pend := 0
  act := 0
  prio := Vector.replicate 256 0
  ithresdr := 0
  vtfbaddrr := 0
  cfgr := 0
  vtfidr := 0
  vtfaddrr := Vector.replicate 4 0
  sctlr := 0

/-- The system timer after reset (R531). -/
def SysTick.reset : SysTick := ⟨0, 0, 0, 0, 0, 0, 0⟩

/-- The debug module after reset (R561). -/
def DebugModule.reset : DebugModule where
  data0 := 0
  data1 := 0
  haltreq := false
  ndmreset := false
  dmactive := false
  havereset := false
  resumeack := false
  cmderr := 0
  command := 0
  autoexecProgbuf := 0
  autoexecData := 0
  progbuf := Vector.replicate 8 0
  readout := 0

/-- The machine right after reset, for given parameters (R68, R590). -/
def State.resetWith (cfg : Config) : State where
  cfg := cfg
  regs := Vector.replicate 32 0
  pc := cfg.resetPc &&& 0xFFFFFFFE
  priv := .machine
  csr := Csrs.reset
  mem := []
  stale := []
  resv := none
  pfic := Pfic.reset
  stk := SysTick.reset
  hpe := Vector.replicate 2 .empty
  handlers := []
  sleep := .awake
  eventLatch := false
  locked := false
  dbg := .running
  dm := DebugModule.reset
  inputs := []
  freeIndex := 0

/-- The machine right after reset, with the standard parameters (log entry 1). -/
def State.reset : State := State.resetWith Config.standard

end Sys2Proof.Machine
end

