-- ==== Sys2Proof/Machine/Memory.lean ====
section
/-! DEFINITION. Memory as a list of bytes in one canonical form: its bytes, its little-endian accesses, its region map
(spec/20_memory.md R100, R103, R105, R106, R112), and the fetch buffer's record of overwritten bytes (R124). -/

namespace Sys2Proof.Machine

/-- The memory type of `State.mem`. -/
abbrev Memory := List Host.Cell

/-- What a byte that nothing has written reads as: the spec gives no contents (R68, R594). DESIGN CHOICE, unsafe, log
entry 5. -/
def unlistedByte : Byte := 0

/-- One byte of memory. -/
def Memory.read : Memory → Nat → Byte
  | [], _ => unlistedByte
  | (b, v) :: rest, a => if a = b then v else if a < b then unlistedByte else Memory.read rest a

/-- Memory with one byte written, in canonical form again. -/
def Memory.write : Memory → Nat → Byte → Memory
  | [], a, v => if v = unlistedByte then [] else [(a, v)]
  | (b, w) :: rest, a, v =>
    if a < b then (if v = unlistedByte then (b, w) :: rest else (a, v) :: (b, w) :: rest)
    else if a = b then (if v = unlistedByte then rest else (a, v) :: rest)
    else (b, w) :: Memory.write rest a v

/-- From address `lo` on: addresses rise strictly and stay in the 4 GB space, and no entry is an unlisted byte. -/
def Memory.wfFrom (lo : Nat) : Memory → Bool
  | [] => true
  | (a, v) :: rest => decide (lo ≤ a) && decide (a < 2 ^ 32) && decide (v ≠ unlistedByte) && Memory.wfFrom (a + 1) rest

/-- The canonical form: equal memories are equal lists. -/
def Memory.wf (m : Memory) : Bool := Memory.wfFrom 0 m

/-- How many bytes an access moves (R108). -/
def widthBytes : Width → Nat
  | .byte => 1
  | .half => 2
  | .word => 4

/-- Natural alignment (R106). -/
def aligned : Width → Word → Bool
  | .byte, _ => true
  | .half, a => a.extractLsb' 0 1 == 0
  | .word, a => a.extractLsb' 0 2 == 0

/-- The address of byte k of an access (R103); address arithmetic is modulo 2^32 (R11). -/
def byteAddr (a : Word) (k : Nat) : Nat := (a + BitVec.ofNat 32 k).toNat

/-- A little-endian read, zero-extended to 32 bits (R103, R105). -/
def Memory.load (m : Memory) : Width → Word → Word
  | .byte, a => (Memory.read m (byteAddr a 0)).zeroExtend 32
  | .half, a => (Memory.read m (byteAddr a 1) ++ Memory.read m (byteAddr a 0) : BitVec 16).zeroExtend 32
  | .word, a => Memory.read m (byteAddr a 3) ++ Memory.read m (byteAddr a 2) ++ Memory.read m (byteAddr a 1) ++
      Memory.read m (byteAddr a 0)

/-- The bytes a little-endian store of the low part of `v` writes, lowest address first (R103). -/
def storeCells : Width → Word → Word → List Host.Cell
  | .byte, a, v => [(byteAddr a 0, v.extractLsb' 0 8)]
  | .half, a, v => [(byteAddr a 0, v.extractLsb' 0 8), (byteAddr a 1, v.extractLsb' 8 8)]
  | .word, a, v => [(byteAddr a 0, v.extractLsb' 0 8), (byteAddr a 1, v.extractLsb' 8 8),
      (byteAddr a 2, v.extractLsb' 16 8), (byteAddr a 3, v.extractLsb' 24 8)]

/-- Memory with several bytes written, in order. -/
def Memory.writeCells : Memory → List Host.Cell → Memory
  | m, [] => m
  | m, (a, v) :: rest => Memory.writeCells (Memory.write m a v) rest

/-- A little-endian store (R103). -/
def Memory.store (m : Memory) (w : Width) (a v : Word) : Memory := Memory.writeCells m (storeCells w a v)

/-- The earlier values of the bytes about to be written that differ from the new ones: a fetch may still see them
until the next `fence.i` (R124, R600; log entry 10). -/
def overwritten (m : Memory) : List Host.Cell → List Host.Cell
  | [] => []
  | (a, v) :: rest =>
    if Memory.read m a = v then overwritten m rest else (a, Memory.read m a) :: overwritten m rest

/-- Bytes written to memory, with the fetch buffer's record. -/
def State.writeBytes (s : State) (cells : List Host.Cell) : State :=
  { s with mem := Memory.writeCells s.mem cells, stale := overwritten s.mem cells ++ s.stale }

/-- Whether a region holds an address. -/
def regionHolds (r : Region) (a : Nat) : Bool := decide (r.base ≤ a) && decide (a < r.base + r.size)

/-- What the map says an address holds: the first region that holds it decides (D6). -/
def regionOf : List Region → Nat → Option RegionKind
  | [], _ => none
  | r :: rest, a => if regionHolds r a then some r.kind else regionOf rest a

/-- What an address reaches (R112): a core device, or what the map says. -/
inductive Target where
  | memory
  | pfic
  | sysTick
  /-- data0 and data1 of the debug module (R566) -/
  | debugData
  | chipDevice
  | unmapped
deriving DecidableEq, Repr

/-- Whether an address is in the window of data0 and data1 (R566). -/
def State.inDebugWindow (s : State) (a : Word) : Bool :=
  decide (0xE0000000 + s.cfg.dataAddr.toNat ≤ a.toNat) && decide (a.toNat < 0xE0000000 + s.cfg.dataAddr.toNat + 8)

/-- The target of an access at an address. The core's windows come before the map; without a debugger the window of
the debug data words holds nothing (R112, R566, D25). -/
def State.target (s : State) (a : Word) : Target :=
  if 0xE000E000 ≤ a.toNat ∧ a.toNat < 0xE000F000 then .pfic
  else if 0xE000F000 ≤ a.toNat ∧ a.toNat < 0xE0010000 then .sysTick
  else if s.inDebugWindow a then (if s.cfg.debugger then .debugData else .unmapped)
  else match regionOf s.cfg.memmap a.toNat with
    | some .memory => .memory
    | some .chipDevice => .chipDevice
    | none => .unmapped

end Sys2Proof.Machine
end

