-- ==== Sys2Proof/Machine/Operands.lean ====
section
/-! DEFINITION. Operands: general registers (spec/10_state.md R30, R31), the 3-bit register fields (R178), immediates
(R173, R179), and effective addresses (R255, R259). -/

namespace Sys2Proof.Machine

/-- `x[r]`: x0 reads 0 (R12, R31). -/
def State.readReg (s : State) (r : Reg) : Word := if r = 0 then 0 else s.regs[r.toNat]

/-- `x[r] <- v`: a write of x0 is discarded (R12, R31). -/
def State.writeReg (s : State) (r : Reg) (v : Word) : State :=
  if r = 0 then s else { s with regs := s.regs.set r.toNat v }

/-- The register a 3-bit field names: x8 to x15 (R178). -/
def wideReg (r : CReg) : Reg := 0b01#2 ++ r

/-- Sign-extension of an immediate to 32 bits (R11, R173, R179). -/
def sext32 {n : Nat} (v : BitVec n) : Word := v.signExtend 32

/-- Zero-extension of an immediate to 32 bits (R11, R179). -/
def zext32 {n : Nat} (v : BitVec n) : Word := v.zeroExtend 32

/-- The immediate of the U format: inst[31:12] above twelve zero bits (R173). -/
def upperImm (imm : BitVec 20) : Word := imm ++ 0#12

/-- The link register of `c.jal` and `c.jalr` (R32). -/
def raReg : Reg := 1

/-- The stack pointer of the compressed stack forms (R32). -/
def spReg : Reg := 2

/-- `x[rs1] + imm` (R255, R259). -/
def State.effAddr (s : State) (rs1 : Reg) (imm : BitVec 12) : Word := s.readReg rs1 + sext32 imm

/-- `x[8+rs1'] + uimm` (R322, R323). -/
def State.compactAddr (s : State) (rs1' : CReg) (uimm : BitVec 7) : Word := s.readReg (wideReg rs1') + zext32 uimm

/-- `x[2] + uimm` (R341, R347). -/
def State.stackAddr (s : State) (uimm : BitVec 8) : Word := s.readReg spReg + zext32 uimm

/-- A jump's target with bit 0 cleared (R242, R342, R345). -/
def clearBit0 (a : Word) : Word := a &&& 0xFFFFFFFE

/-- The pc after an instruction of `len` bytes that transfers no control; modulo 2^32 (R12, R34). -/
def State.nextPc (s : State) (len : Word) : Word := s.pc + len

end Sys2Proof.Machine
end

