-- ==== Sys2Proof/Machine/Pmp.lean ====
section
/-! DEFINITION. Physical memory protection (spec/21_pmp.md): region matching and the access check of V3C. -/

namespace Sys2Proof.Machine

/-- What an access does, as the PMP and the triggers see it (R152, R578). -/
inductive Access where
  | fetch | load | store
  /-- an AMO reads and writes: it needs both permissions (R152) -/
  | amo
deriving DecidableEq, Repr

/-- The field pmp<i>cfg (R141). -/
def pmpCfgByte (c : Csrs) (i : Nat) : Byte := c.pmpcfg0.extractLsb' (8 * i) 8

/-- The address-matching mode A of a field (R141). -/
def pmpMode (b : Byte) : BitVec 2 := b.extractLsb' 3 2

/-- pmpaddr<i>[29:0]; regions beyond 3 do not exist. -/
def pmpAddrField (c : Csrs) (i : Nat) : Nat :=
  match c.pmpaddr[i]? with
  | some v => v.toNat
  | none => 0

/-- The number of consecutive 1 bits of `v` from bit 0 on, of at most `fuel` (R146). -/
def trailingOnes : Nat → Nat → Nat
  | 0, _ => 0
  | fuel + 1, v => if v % 2 = 1 then trailingOnes fuel (v / 2) + 1 else 0

/-- The lower bound of a TOR region (R144). -/
def torBase (c : Csrs) (i : Nat) : Nat := if i = 0 then 0 else pmpAddrField c (i - 1) * 4

/-- A NAPOT region is 2^(k+3) bytes: the address and the field agree above them (R146). -/
def napotMatches (field a : Nat) : Bool :=
  a / 2 ^ (trailingOnes 30 field + 3) == field / 2 ^ (trailingOnes 30 field + 1)

/-- Whether region i matches a byte address (R143 to R146). -/
def pmpMatches (c : Csrs) (i : Nat) (a : Nat) : Bool :=
  match pmpMode (pmpCfgByte c i) with
  | 0#2 => false
  | 1#2 => decide (torBase c i ≤ a) && decide (a < pmpAddrField c i * 4)
  | 2#2 => a / 4 == pmpAddrField c i
  | _ => napotMatches (pmpAddrField c i) a

/-- The lowest-numbered region that matches (R148). -/
def pmpRegion (c : Csrs) (a : Nat) : Option Nat := [0, 1, 2, 3].find? (fun i => pmpMatches c i a)

/-- Whether a field's R, W and X bits permit an access (R141, R152). -/
def pmpPermits (b : Byte) : Access → Bool
  | .fetch => b.getLsbD 2
  | .load => b.getLsbD 0
  | .store => b.getLsbD 1
  | .amo => b.getLsbD 0 && b.getLsbD 1

/-- The check for one address at a privilege mode (R150, R152). -/
def pmpCheck (c : Csrs) (p : Priv) (k : Access) (a : Nat) : Bool :=
  match pmpRegion c a with
  | none => decide (p = .machine)
  | some i => (decide (p = .machine) && !(pmpCfgByte c i).getLsbD 7) || pmpPermits (pmpCfgByte c i) k

/-- Debug mode runs with machine privilege (R570). DESIGN CHOICE, log entry 28: the loads, stores and atomics of the
program buffer are checked by the PMP at that privilege, so that only a locked region can deny one (R152 does not say
that the debugger's accesses are checked). -/
def State.effPriv (s : State) : Priv := if s.dbg = .running then s.priv else .machine

/-- The check as the model has it: only V3C has a PMP (R8, R152). -/
def State.pmpAllows (s : State) (k : Access) (a : Word) : Bool :=
  if s.cfg.model = .v3c then pmpCheck s.csr s.effPriv k a.toNat else true

end Sys2Proof.Machine
end

