-- ==== Sys2Proof/Machine/Ops.lean ====
section
/-! DEFINITION. The operations the meanings share: free values, nesting and the hardware stack, taking a trap and
returning from one (spec/60_exceptions.md R430 to R450), entering debug mode (R570, R571), the system reset (R592), and
the result of an operation that may raise an exception (R12). -/

namespace Sys2Proof.Machine

/-! ## Free values (log entry 6) -/

/-- The next free value. -/
def State.free (s : State) : Word := Config.freeWord s.freeIndex

/-- The state after one free value is used. -/
def State.drawn (s : State) : State := { s with freeIndex := s.freeIndex + 1 }

/-! ## Small updates -/

def State.setPc (s : State) (a : Word) : State := { s with pc := a }

/-- Past an instruction of `len` bytes (R12, R34). -/
def State.advance (s : State) (len : Word) : State := s.setPc (s.nextPc len)

/-- The result of an instruction that writes one register and transfers no control (R12, R210). -/
def State.retire (s : State) (rd : Reg) (v : Word) (len : Word) : Outcome := .next ((s.writeReg rd v).advance len)

/-! ## mstatus (R40) -/

def mstatusMie (w : Word) : Bool := w.getLsbD 3
def mstatusMpie (w : Word) : Bool := w.getLsbD 7

/-- MPP holds 0b11 or 0b00 only (R40; log entry 14). -/
def mstatusMpp (w : Word) : Priv := if w.extractLsb' 11 2 = 3 then .machine else .user

/-- The two-bit code of a mode (R35). -/
def privCode (p : Priv) : BitVec 2 := if p = .machine then 3 else 0

/-- mstatus with its three fields; every other bit is reserved and reads 0 (R40). -/
def mkMstatus (mie mpie : Bool) (mpp : Priv) : Word :=
  (if mpp = .machine then 0x1800 else 0) ||| (if mpie then 0x80 else 0) ||| (if mie then 0x8 else 0)

/-! ## Requests and pending bits (R475, R486, R540) -/

/-- Requests that stay asserted: interrupt 12 while CNTIF and STIE are set, interrupt 14 while SWIE is set. V3A has
neither STK_SR nor STIE. -/
def levelRequests (m : Model) (t : SysTick) : BitVec 256 :=
  if m = .v3a then 0
  else (if t.sr.getLsbD 0 && t.ctlr.getLsbD 1 then 0x1000 else 0) ||| (if t.sr.getLsbD 31 then 0x4000 else 0)

/-- The pending bits: latched, or still requested (log entry 17). -/
def State.pending (s : State) : BitVec 256 := s.pfic.pend ||| levelRequests s.cfg.model s.stk

/-- `PFIC_SCTLR.SEVONPEND` (R484). -/
def State.sevonpend (s : State) : Bool := s.pfic.sctlr.getLsbD 4

/-- Requests arrive: their pending bits are latched, and with SEVONPEND a bit that was not pending before is an event
(R475, R553, R554; log entry 18). -/
def State.request (s : State) (mask : BitVec 256) : State :=
  { s with
    pfic := { s.pfic with pend := s.pfic.pend ||| mask }
    eventLatch := s.eventLatch || (s.sevonpend && mask &&& ~~~s.pending != 0) }

/-- The timer's registers change: a request that becomes asserted is latched (R486, R540). -/
def State.setStk (s : State) (t : SysTick) : State :=
  { s.request (levelRequests s.cfg.model t &&& ~~~levelRequests s.cfg.model s.stk) with stk := t }

/-! ## Nesting and the hardware stack (R444 to R447) -/

/-- The nesting level: handlers entered and not returned (R64). -/
def State.level (s : State) : Nat := s.handlers.length

/-- Whether nesting is enabled (R444). -/
def State.nestingEnabled (s : State) : Bool :=
  if s.cfg.model = .v3a then !s.pfic.cfgr.getLsbD 1
  else s.csr.intsyscr.getLsbD 1 && s.csr.inestcr.extractLsb' 0 2 == 1

/-- `MAX_LEVEL` (R444). -/
def State.maxLevel (s : State) : Nat := if s.nestingEnabled then 2 else 1

/-- `intsyscr.GIHWSTKNEN`, 0 on V3A (R426, R441). -/
def State.gihwstknen (s : State) : Bool := decide (s.cfg.model ≠ .v3a) && s.csr.intsyscr.getLsbD 5

/-- Whether the hardware stack is switched on, GIHWSTKNEN apart (R446). -/
def State.hpeSwitch (s : State) : Bool :=
  if s.cfg.model = .v3a then !s.pfic.cfgr.getLsbD 0 else s.csr.intsyscr.getLsbD 0

/-- Whether an entry pushes and a return pops (R446). -/
def State.hpeEnabled (s : State) : Bool := s.hpeSwitch && !s.gihwstknen

/-- The 16 caller-saved registers (R32, R62, R445). -/
def hpeRegs : List Reg := [1, 5, 6, 7, 10, 11, 12, 13, 14, 15, 16, 17, 28, 29, 30, 31]

/-- The registers a push copies, in the order of `hpeRegs`. -/
def State.hpeSave (s : State) : HpeFrame :=
  #v[s.readReg 1, s.readReg 5, s.readReg 6, s.readReg 7, s.readReg 10, s.readReg 11, s.readReg 12, s.readReg 13,
    s.readReg 14, s.readReg 15, s.readReg 16, s.readReg 17, s.readReg 28, s.readReg 29, s.readReg 30, s.readReg 31]

/-- Writes of several registers, in order. -/
def State.writeRegs (s : State) : List Reg → List Word → State
  | r :: rs, v :: vs => State.writeRegs (s.writeReg r v) rs vs
  | _, _ => s

/-- A pop copies a frame back into the 16 registers (R445). -/
def State.hpeRestore (s : State) (f : HpeFrame) : State := s.writeRegs hpeRegs f.toList

/-- The place of level `k + 1` after an entry to that level: a copy of the registers, or nothing while HPE is off; an
entry beyond level 2 finds no free frame (R445, R447). -/
def State.hpePush (s : State) : State :=
  { s with hpe := s.hpe.setIfInBounds s.level (if s.hpeEnabled then .saved s.hpeSave else .empty) }

/-- 16 free values in the registers of the hardware stack: what an unbalanced pop leaves (R446; log entry 16). -/
def State.hpeScramble (s : State) : List Reg → State
  | [] => s
  | r :: rs => State.hpeScramble ((s.writeReg r s.free).drawn) rs

/-- The pop of a return from level `k + 1`. With GIHWSTKNEN set nothing is popped (R441; log entry 16); where the enable
has changed since the entry, or does not match the frame, the 16 registers are unspecified (R446, D22). -/
def State.hpePop (s : State) (k : Nat) : State :=
  let s' := { s with hpe := s.hpe.setIfInBounds k .empty }
  if s.gihwstknen then s'
  else match s.hpe[k]? with
    | some (.saved f) => if s.hpeSwitch then s'.hpeRestore f else s'.hpeScramble hpeRegs
    | some .unbalanced => s'.hpeScramble hpeRegs
    | some .empty => if s.hpeSwitch then s'.hpeScramble hpeRegs else s'
    | none => if s.hpeSwitch then s'.hpeScramble hpeRegs else s'

/-- The places of the lowest `live` levels no longer pair with their returns (R446). -/
def unbalance (hpe : Vector HpeSlot 2) (live : Nat) : Vector HpeSlot 2 :=
  #v[if 0 < live then .unbalanced else hpe[0], if 1 < live then .unbalanced else hpe[1]]

/-- After a write or a return that may change the enable, which was `before`: a change between an entry and its return
unbalances every handler being run, also where it is changed back later (R446, R604; log entry 16). -/
def State.settleHpe (s : State) (before : Bool) : State :=
  { s with hpe := if s.hpeEnabled = before then s.hpe else unbalance s.hpe s.level }

/-- After a trap entry or a return it is not defined whether the reservation is still valid (R301; log entry 9). -/
def State.doubtReservation (s : State) : State :=
  { s with resv := s.resv.map fun r => { r with certain := false } }

/-! ## Exceptions (R420, R422) -/

/-- The synchronous exceptions. Codes 5 and 7 are not among them: they end the run (R457, D8). -/
inductive Exc where
  /-- code 0; no rule of the ISA raises it (R107, R422) -/
  | instructionAddressMisaligned (target : Word)
  /-- code 1 -/
  | instructionAccessFault (addr : Word)
  /-- code 2; the word, or the parcel zero-extended (R190) -/
  | illegalInstruction (bits : Word)
  /-- code 3; `mtval` is 0 for `ebreak`, the pc for a trigger (R434) -/
  | breakpoint (tval : Word)
  /-- code 4 -/
  | loadAddressMisaligned (addr : Word)
  /-- code 6 -/
  | storeAddressMisaligned (addr : Word)
  /-- code 8 -/
  | ecallFromU
  /-- code 11 -/
  | ecallFromM
deriving DecidableEq, Repr

/-- The code `mcause` receives (R420, R435). -/
def excCode : Exc → Word
  | .instructionAddressMisaligned _ => 0
  | .instructionAccessFault _ => 1
  | .illegalInstruction _ => 2
  | .breakpoint _ => 3
  | .loadAddressMisaligned _ => 4
  | .storeAddressMisaligned _ => 6
  | .ecallFromU => 8
  | .ecallFromM => 11

/-- What `mtval` receives (R434). -/
def excTval : Exc → Word
  | .instructionAddressMisaligned a => a
  | .instructionAccessFault a => a
  | .illegalInstruction w => w
  | .breakpoint v => v
  | .loadAddressMisaligned a => a
  | .storeAddressMisaligned a => a
  | .ecallFromU => 0
  | .ecallFromM => 0

/-- The controller's slot of an exception (R431, D20). -/
def excSlot (m : Model) (e : Exc) : Nat :=
  if m = .v3a then 3
  else match e with
    | .ecallFromM => 5
    | .ecallFromU => 8
    | .breakpoint _ => 9
    | _ => 3

/-! ## Trap entry (R430) -/

/-- `mtvec` without its mode bits: bits [9:2] are fixed to 0 (R42, R431). -/
def mtvecBase (w : Word) : Word := w &&& 0xFFFFFC00

/-- The address of the vector-table word or of the entry itself (R431). -/
def State.vectorAddr (s : State) (slot : Nat) : Word :=
  if s.csr.mtvec.getLsbD 0 then mtvecBase s.csr.mtvec + BitVec.ofNat 32 (4 * slot) else mtvecBase s.csr.mtvec

/-- MODE1 counts on V3B and V3C only (R42, D35). -/
def State.vectorIndirect (s : State) : Bool := decide (s.cfg.model ≠ .v3a) && s.csr.mtvec.getLsbD 1

/-- The hardware's read of a vector-table word: a 4-byte little-endian read with machine privilege. Whether a locked
PMP region that denies it stops it is not stated: a free bit decides (R431; log entry 35). The pc it gives, with bit 0
ignored, and the state after the free bit. -/
def State.vectorRead (s : State) (a : Word) : Except Outcome (Word × State) :=
  match s.target a with
  | .memory =>
    let v := clearBit0 (Memory.load s.mem .word a)
    if s.cfg.model = .v3c ∧ pmpCheck s.csr .machine .load a.toNat = false then
      if s.free.getLsbD 0 then .ok (v, s.drawn) else .error (.fault (.vectorRead a))
    else .ok (v, s)
  | .chipDevice => .error (.refused (.chipDevice a))
  | _ => .error (.fault (.vectorRead a))

/-- The entry address of a slot through the vector table (R431). -/
def State.tableEntry (s : State) (slot : Nat) : Except Outcome (Word × State) :=
  if s.vectorIndirect then s.vectorRead (s.vectorAddr slot) else .ok (s.vectorAddr slot, s)

/-- Whether VTF channel k is for interrupt n (R450). -/
def State.vtfFor (s : State) (n k : Nat) : Bool :=
  match s.pfic.vtfaddrr[k]? with
  | none => false
  | some v =>
    if s.cfg.model = .v3a then v.extractLsb' 24 8 == BitVec.ofNat 8 n && n != 0
    else v.getLsbD 0 && s.pfic.vtfidr.extractLsb' (8 * k) 8 == BitVec.ofNat 8 n

/-- The entry address of VTF channel k (R450). -/
def State.vtfTarget (s : State) (k : Nat) : Word :=
  match s.pfic.vtfaddrr[k]? with
  | none => 0
  | some v =>
    if s.cfg.model = .v3a then clearBit0 ((s.pfic.vtfbaddrr &&& 0xF0000000) ||| (v &&& 0x000FFFFF))
    else clearBit0 v

/-- The entry address of interrupt n: a VTF channel configured for n, the lowest first, else the table (R431, R450,
D21). -/
def State.interruptEntry (s : State) (n : Nat) : Except Outcome (Word × State) :=
  match [0, 1, 2, 3].find? (s.vtfFor n) with
  | some k => .ok (s.vtfTarget k, s)
  | none => s.tableEntry n

/-- `inestcr.NEST_OV` is set by an entry while the second-level handler runs, on V3B and V3C (R60, R444). -/
def State.markOverflow (s : State) : State :=
  if s.cfg.model ≠ .v3a ∧ 2 ≤ s.level then
    { s with csr := { s.csr with inestcr := s.csr.inestcr ||| 0x40000000 } }
  else s

/-- The entry sequence of R430 with its values: `mepc`, `mcause`, `mtval`, `mstatus` (R432 to R435; MIE is cleared
when the new level reaches `MAX_LEVEL`, R433), machine mode (R436), the slot's active and pending bits, the level, the
hardware stack (R445), the pc. -/
def State.enterTrap (s : State) (cause tval : Word) (slot : Nat) (entry : Word) : State :=
  let p := s.hpePush.markOverflow.doubtReservation
  { p with
    csr := { p.csr with
      mepc := s.pc
      mcause := cause
      mtval := tval
      mstatus := mkMstatus (mstatusMie s.csr.mstatus && decide (s.level + 1 < s.maxLevel))
        (mstatusMie s.csr.mstatus) s.priv }
    priv := .machine
    pfic := { p.pfic with
      act := p.pfic.act ||| BitVec.twoPow 256 slot
      pend := p.pfic.pend &&& ~~~BitVec.twoPow 256 slot }
    handlers := slot :: s.handlers
    sleep := .awake
    pc := entry }

/-- An entry beyond level 4 is outside the model (R444, D22; log entry 15). -/
def State.takeTrap (s : State) (cause tval : Word) (slot : Nat) (entry : Except Outcome (Word × State)) : Outcome :=
  if 4 ≤ s.level then .refused .nestingOverflow
  else match entry with
    | .ok (a, s') => .next (s'.enterTrap cause tval slot a)
    | .error o => o

/-- A trap for an exception (R430). -/
def State.takeException (s : State) (e : Exc) : Outcome :=
  s.takeTrap (excCode e) (excTval e) (excSlot s.cfg.model e) (s.tableEntry (excSlot s.cfg.model e))

/-- `mcause` of interrupt n (R420). -/
def interruptCause (n : Nat) : Word := 0x80000000 ||| BitVec.ofNat 32 n

/-- A trap for interrupt n (R430). -/
def State.takeInterrupt (s : State) (n : Nat) : Outcome := s.takeTrap (interruptCause n) 0 n (s.interruptEntry n)

/-! ## Trap return (R440) -/

/-- The sleep state `PFIC_SCTLR` asks for (R550, R551). -/
def State.sleepDeep (s : State) : Bool := s.pfic.sctlr.getLsbD 2

/-- The first steps of a return: pc, mode, MIE; MPIE and MPP keep their values or become 1 and 0b00, which a free bit
decides (R440, D12; log entry 8). -/
def State.returnCore (s : State) : State :=
  let st := s.csr.mstatus
  let keep := s.free.getLsbD 0
  { s.drawn.doubtReservation with
    pc := clearBit0 s.csr.mepc
    priv := mstatusMpp st
    csr := { s.csr with
      mstatus := mkMstatus (mstatusMpie st) (!keep || mstatusMpie st) (if keep then mstatusMpp st else .user) } }

/-- Whether the end of a handler of level `k + 1` puts the core to sleep: the outermost one with SLEEPONEXIT, outside
debug mode (R442, R550). -/
def State.sleepsOnExit (s : State) (k : Nat) : Bool :=
  decide (k = 0) && s.pfic.sctlr.getLsbD 1 && decide (s.dbg = .running)

/-- The steps of a return that end the innermost handler, in `slot`, of level `k + 1` (R440 to R442). Clearing GIHWSTKNEN
may switch the hardware stack on for the handlers that go on. DESIGN CHOICE, log
entry 19: R440 and R442 say both "as by wfi", which WFITOWFE would make a wait for an event, and "WFI"; the sleep is by
the WFI method whatever WFITOWFE holds, and leaves the event latch alone. -/
def State.endHandler (s : State) (slot k : Nat) (rest : List Nat) : State :=
  let p := s.hpePop k
  let t := { p with
    pfic := { p.pfic with act := p.pfic.act &&& ~~~BitVec.twoPow 256 slot }
    csr := { p.csr with intsyscr := p.csr.intsyscr &&& ~~~0x20 }
    handlers := rest
    sleep := if s.sleepsOnExit k then .asleep s.sleepDeep false else p.sleep }
  t.settleHpe s.hpeEnabled

/-- The return from a trap in machine mode. At level 3 or more it is outside the model (R444, D22); with no trap in
progress only the first steps happen (R443). -/
def State.trapReturn (s : State) : Outcome :=
  match s.handlers with
  | [] => .next s.returnCore
  | slot :: rest =>
    if 2 ≤ rest.length then .refused .nestingOverflow else .next (s.returnCore.endHandler slot rest.length rest)

/-! ## Debug mode and reset -/

/-- `dcsr` on entry to debug mode: cause and prv (R54, R570). -/
def dcsrOnEntry (d : Word) (cause : BitVec 3) (p : Priv) : Word :=
  (d &&& 0xFFFFFE3C) ||| (cause.zeroExtend 32 <<< 6) ||| (privCode p).zeroExtend 32

/-- Entry to debug mode (R570, R571): nothing but dpc, dcsr and the core's state changes; a halted core is awake.
DESIGN CHOICE, log entry 29: so is one that a single step halts over a `wfi` or a sleeping `mret`. -/
def State.enterDebug (s : State) (cause : BitVec 3) (dpc : Word) : State :=
  { s with
    csr := { s.csr with dpc := dpc, dcsr := dcsrOnEntry s.csr.dcsr cause s.priv }
    dbg := .halted
    sleep := .awake }

/-- Entry by a trigger with ACTION = 1: dpc is not defined (R571, D38; log entry 26). -/
def State.enterDebugByTrigger (s : State) : State := s.drawn.enterDebug 2 s.free

/-- The end of a program-buffer run: the core is halted again, and an error is recorded (R273, R565, R569). -/
def State.endProgbuf (s : State) (err : BitVec 3) : State :=
  { s with dbg := .halted, dm := { s.dm with cmderr := if s.dm.cmderr = 0 then err else s.dm.cmderr } }

/-- A system reset: everything returns to its reset value but memory, which is kept (R592), and the model's own
fields (log entry 30). -/
def State.systemReset (s : State) : State :=
  { State.resetWith s.cfg with mem := s.mem, inputs := s.inputs, freeIndex := s.freeIndex }

/-! ## Operations that may not complete (R12) -/

/-- The result of an operation: it completes, or the instruction does not (`raise` of R12), or the step ends. -/
inductive Res (α : Type) where
  | ok (a : α) (s : State)
  | raise (e : Exc)
  /-- a trigger with ACTION = 1 matches (R578) -/
  | trigger
  | fault (r : Fault)
  | refuse (r : Refusal)
deriving Repr

/-- An exception at state `s`: a trap, or in the program buffer the end of the run with cmderr = 3 (R430, R565). -/
def State.raiseExc (s : State) (e : Exc) : Outcome :=
  if s.dbg = .progbuf then .next (s.endProgbuf 3) else s.takeException e

/-- An access error at state `s`: the end of the run, or in the program buffer cmderr = 3 (D8, R565). -/
def State.accessError (s : State) (r : Fault) : Outcome :=
  if s.dbg = .progbuf then .next (s.endProgbuf 3) else .fault r

/-- The outcome of an instruction at `s` that goes on with the result of an operation. Where the operation does not
complete nothing of the instruction has happened (R12, R424). -/
def State.run {α : Type} (s : State) (r : Res α) (k : α → State → Outcome) : Outcome :=
  match r with
  | .ok a s' => k a s'
  | .raise e => s.raiseExc e
  | .trigger => .next s.enterDebugByTrigger
  | .fault r => s.accessError r
  | .refuse r => .refused r

end Sys2Proof.Machine
end

