-- ==== Sys2Proof/Machine/Pfic.lean ====
section
/-! DEFINITION. The interrupt controller (spec/61_pfic.md): which numbers exist, priorities and arbitration, and its
registers as loads and stores reach them. -/

namespace Sys2Proof.Machine

/-! ## Numbers (R470, R471, R474) -/

/-- The fixed slots a model has: NMI and EXC, and on V3B and V3C the two environment calls and the breakpoint. -/
def fixedSlots (m : Model) : BitVec 256 := if m = .v3a then 0xC else 0x32C

/-- The external numbers 16 to 255. -/
def externalNumbers : BitVec 256 := BitVec.allOnes 256 <<< 16

/-- The programmable numbers that exist: SysTick, the software interrupt and the wired external numbers (R423, R487). -/
def programmable (c : Config) : BitVec 256 := 0x5000 ||| (c.irqWired &&& externalNumbers)

/-- The external numbers without a source: their bits are not specified (R470, D23; log entry 23). -/
def unwired (c : Config) : BitVec 256 := externalNumbers &&& ~~~c.irqWired

/-- The enable bits (R474). -/
def State.enabled (s : State) : BitVec 256 := (s.pfic.en &&& programmable s.cfg) ||| fixedSlots s.cfg.model

/-! ## Priorities (R477, R497) -/

/-- The implemented bits of a priority byte (R477). -/
def prioMask (m : Model) : Byte :=
  match m with
  | .v3a => 0xF0
  | .v3b => 0xC0
  | .v3c => 0xE0

/-- The implemented bits of the threshold (R478). -/
def threshMask (m : Model) : Byte := if m = .v3a then 0xF0 else 0xE0

/-- How many bits of a priority byte are implemented (R477). -/
def prioBits (m : Model) : Nat :=
  match m with
  | .v3a => 4
  | .v3b => 2
  | .v3c => 3

/-- `PB`, the number of preemption bits (R497). -/
def State.preemptBits (s : State) : Nat :=
  if !s.nestingEnabled then 0
  else if s.cfg.model = .v3a then 1
  else if s.cfg.pmtcfgImplemented then Nat.min (s.csr.intsyscr.extractLsb' 2 2).toNat (prioBits s.cfg.model)
  else prioBits s.cfg.model

/-- The preemption field of a priority byte: its top `PB` bits (R497). -/
def State.preempt (s : State) (p : Byte) : Nat := p.toNat / 2 ^ (8 - s.preemptBits)

/-- The priority byte of a number (R477); numbers above 255 do not exist. -/
def State.prioOf (s : State) (n : Nat) : Byte :=
  match s.pfic.prio[n]? with
  | some p => p
  | none => 0

/-- A slot whose priority is a negative constant (R471). -/
def fixedPriority (n : Nat) : Bool := n < 12

/-! ## Arbitration (R426, R490, R491) -/

/-- The global-enable and threshold lines of R426 for a programmable number (D37). -/
def State.passesThreshold (s : State) (n : Nat) : Bool :=
  s.pfic.ithresdr == 0 || decide ((s.prioOf n).toNat < s.pfic.ithresdr.toNat)

/-- The programmable numbers that are pending and enabled. -/
def State.requested (s : State) : BitVec 256 := s.pending &&& s.enabled &&& programmable s.cfg

/-- The better of two candidates: the smaller whole priority byte, then the smaller number, which is the first (R490). -/
def State.better (s : State) (best : Option Nat) (n : Nat) : Option Nat :=
  match best with
  | none => some n
  | some m => if (s.prioOf n).toNat < (s.prioOf m).toNat then some n else some m

/-- The best programmable candidate among some numbers, in rising order (R490). -/
def State.bestOf (s : State) (req : BitVec 256) : Option Nat → List Nat → Option Nat
  | best, [] => best
  | best, n :: ns =>
    State.bestOf s req (if req.getLsbD n && s.passesThreshold n then s.better best n else best) ns

/-- Every number of the controller, in rising order. -/
def allNumbers : List Nat := List.range 256

/-- Whether the core lets a programmable candidate through: no handler runs, or it preempts the innermost one (R426,
R491). The running handler of a fixed slot is preempted by none. -/
def State.preempts (s : State) (n : Nat) : Bool :=
  match s.handlers with
  | [] => true
  | m :: _ =>
    s.nestingEnabled && decide (s.level < s.maxLevel) && !fixedPriority m &&
      decide (s.preempt (s.prioOf n) < s.preempt (s.prioOf m))

/-- NMI is pending and the innermost handler is not its own (R426, R427, R491; log entry 24). -/
def State.nmiReady (s : State) : Bool := s.pending.getLsbD 2 && decide (s.handlers.head? ≠ some 2)

/-- The global enable of R426. -/
def State.interruptsOn (s : State) : Bool := mstatusMie s.csr.mstatus && !s.gihwstknen

/-- The programmable interrupt the controller offers and the core accepts. -/
def State.programmableWinner (s : State) : Option Nat :=
  if !s.interruptsOn || s.requested == 0 then none
  else match s.bestOf s.requested none allNumbers with
    | some n => if s.preempts n then some n else none
    | none => none

/-- The interrupt taken at this boundary, if any (R425, R426, R490): NMI, else a programmable number. No other fixed slot
is delivered by its pending bit (R492). DESIGN CHOICE, log entry 22: nor does a pending call slot keep back a
programmable number that R490 puts after it. -/
def State.acceptedInterrupt (s : State) : Option Nat := if s.nmiReady then some 2 else s.programmableWinner

/-! ## Registers (R472, R473) -/

/-- The register at an offset from 0xE000E000. -/
inductive PficReg where
  | isr (x : Nat) | ipr (x : Nat) | ithresdr | vtfbaddrr | cfgr | gisr | vtfidr | vtfaddrr (k : Nat)
  | ienr (x : Nat) | irer (x : Nat) | ipsr (x : Nat) | iprr (x : Nat) | iactr (x : Nat)
  /-- the priority byte of a number -/
  | iprior (n : Nat)
  | sctlr
deriving DecidableEq, Repr

/-- The register map of R472; registers of another model are absent. -/
def pficReg (m : Model) (off : Nat) : Option PficReg :=
  if off < 0x20 then some (.isr (off / 4))
  else if off < 0x40 then some (.ipr ((off - 0x20) / 4))
  else if off < 0x44 then some .ithresdr
  else if off < 0x48 then (if m = .v3a then some .vtfbaddrr else none)
  else if off < 0x4C then (if m = .v3a then some .cfgr else none)
  else if off < 0x50 then some .gisr
  else if off < 0x54 then (if m = .v3a then none else some .vtfidr)
  else if off < 0x60 then none
  else if off < 0x70 then some (.vtfaddrr ((off - 0x60) / 4))
  else if off < 0x100 then none
  else if off < 0x120 then some (.ienr ((off - 0x100) / 4))
  else if off < 0x180 then none
  else if off < 0x1A0 then some (.irer ((off - 0x180) / 4))
  else if off < 0x200 then none
  else if off < 0x220 then some (.ipsr ((off - 0x200) / 4))
  else if off < 0x280 then none
  else if off < 0x2A0 then some (.iprr ((off - 0x280) / 4))
  else if off < 0x300 then none
  else if off < 0x320 then some (.iactr ((off - 0x300) / 4))
  else if off < 0x400 then none
  else if off < 0x500 then some (.iprior (off - 0x400))
  else if off < 0xD10 then none
  else if off < 0xD14 then some .sctlr
  else none

/-- The 32 bits of group register x (R472). -/
def groupWord (v : BitVec 256) (x : Nat) : Word := v.extractLsb' (32 * x) 32

/-- A written word as bits of group x. -/
def groupBits (w : Word) (x : Nat) : BitVec 256 := w.zeroExtend 256 <<< (32 * x)

/-- A value whose bits under a mask are not specified: they are free (D23; log entry 23). -/
def State.withFree (s : State) (v mask : Word) : Res Word :=
  if mask = 0 then .ok v s else .ok ((v &&& ~~~mask) ||| (s.free &&& mask)) s.drawn

/-- The nesting field of GISR: 0x00, 0x01, 0x03, and a free value above level 2, which the source calls impossible
(R480; log entry 15). -/
def State.nestCode (s : State) : Res Word :=
  match s.level with
  | 0 => .ok 0 s
  | 1 => .ok 1 s
  | 2 => .ok 3 s
  | _ => .ok (s.free &&& 0xFF) s.drawn

/-- PFIC_GISR without NESTSTA (R480, D42). DESIGN CHOICE, log entry 23: GPENDSTA and GACTSTA are those of the bits the
state holds; the unspecified bits of external numbers without a source, which PFIC_IPR and PFIC_IACTR read as free, make
neither 1. -/
def State.gisrBits (s : State) : Word :=
  (if s.cfg.model = .v3a then 0
    else (if s.locked then 0x2000 else 0) ||| (if s.dbg = .running then 0 else 0x1000) |||
      (if mstatusMie s.csr.mstatus then 0x800 else 0)) |||
    (if s.pending = 0 then 0 else 0x200) ||| (if s.pfic.act = 0 then 0 else 0x100)

/-- The value of a word register (R473: a write-only register reads 0). -/
def State.pficValue (s : State) : PficReg → Res Word
  | .isr x => s.withFree (groupWord s.enabled x) (groupWord (unwired s.cfg) x)
  | .ipr x => s.withFree (groupWord s.pending x) (groupWord (unwired s.cfg) x)
  | .ithresdr => .ok (s.pfic.ithresdr.zeroExtend 32) s
  | .vtfbaddrr => .ok s.pfic.vtfbaddrr s
  | .cfgr => .ok (s.pfic.cfgr.zeroExtend 32) s
  | .gisr =>
    match s.nestCode with
    | .ok v s' => .ok (s.gisrBits ||| v) s'
    | r => r
  | .vtfidr => .ok s.pfic.vtfidr s
  | .vtfaddrr k =>
    match s.pfic.vtfaddrr[k]? with
    | some v => .ok v s
    | none => .ok 0 s
  | .ienr _ => .ok 0 s
  | .irer _ => .ok 0 s
  | .ipsr _ => .ok 0 s
  | .iprr _ => .ok 0 s
  | .iactr x => s.withFree (groupWord s.pfic.act x) (groupWord (unwired s.cfg) x)
  | .iprior _ => .ok 0 s
  | .sctlr => .ok s.pfic.sctlr s

/-- The free bits of the priority bytes n to n + 3 as a word: those of unwired numbers, with the implemented bits only
(R477, D23; log entry 23). -/
def State.prioUnwired (s : State) (n : Nat) : Byte :=
  if (unwired s.cfg).getLsbD n then prioMask s.cfg.model else 0

/-- Four consecutive priority bytes in little-endian order (R473). -/
def State.prioWord (s : State) (n : Nat) : Word :=
  s.prioOf (n + 3) ++ s.prioOf (n + 2) ++ s.prioOf (n + 1) ++ s.prioOf n

def State.prioWordUnwired (s : State) (n : Nat) : Word :=
  s.prioUnwired (n + 3) ++ s.prioUnwired (n + 2) ++ s.prioUnwired (n + 1) ++ s.prioUnwired n

/-- The low part of a word that an access of a width moves (R12). -/
def widthMask : Width → Word
  | .byte => 0xFF
  | .half => 0xFFFF
  | .word => 0xFFFFFFFF

/-- The offset of an address in its 4 KB device window. -/
def deviceOffset (a : Word) : Nat := (a.extractLsb' 0 12).toNat

/-- A load from the controller (R473). -/
def State.pficLoad (s : State) (w : Width) (a : Word) : Res Word :=
  match pficReg s.cfg.model (deviceOffset a) with
  | none => .fault (.loadAccess a)
  | some (.iprior n) => s.withFree (s.prioWord n &&& widthMask w) (s.prioWordUnwired n &&& widthMask w)
  | some r => if w = .word then s.pficValue r else .refuse (.deviceWidth a)

/-- One priority byte is written: the implemented bits, of a programmable number or of a fixed slot, whose byte is held
but not used (R477). -/
def State.setPrio (s : State) (n : Nat) (b : Byte) : State :=
  if (programmable s.cfg ||| fixedSlots s.cfg.model).getLsbD n then
    { s with pfic := { s.pfic with prio := s.pfic.prio.setIfInBounds n (b &&& prioMask s.cfg.model) } }
  else s

/-- Consecutive priority bytes are written (R473). -/
def State.setPrios (s : State) (w : Width) (n : Nat) (v : Word) : State :=
  match w with
  | .byte => s.setPrio n (v.extractLsb' 0 8)
  | .half => (s.setPrio n (v.extractLsb' 0 8)).setPrio (n + 1) (v.extractLsb' 8 8)
  | .word =>
    (((s.setPrio n (v.extractLsb' 0 8)).setPrio (n + 1) (v.extractLsb' 8 8)).setPrio (n + 2)
      (v.extractLsb' 16 8)).setPrio (n + 3) (v.extractLsb' 24 8)

/-- Pending bits are cleared (R475). -/
def State.unpend (s : State) (mask : BitVec 256) : State :=
  { s with pfic := { s.pfic with pend := s.pfic.pend &&& ~~~mask } }

/-- Software sets pending bits: the exception slot's is outside the model (R475, D41; log entry 22). DESIGN CHOICE, log
entry 23: on V3A the numbers 5, 8 and 9, which R475 names and R471 gives no slot of their own there, have no bits:
writes of them are dropped and they read 0. -/
def State.softPend (s : State) (mask : BitVec 256) : Res Unit :=
  if mask.getLsbD 3 then .refuse .softwareException
  else .ok () (s.request (mask &&& (programmable s.cfg ||| fixedSlots s.cfg.model)))

/-- The key in the high half of a word written to PFIC_CFGR (R479). -/
def cfgrKey (v : Word) : Half := v.extractLsb' 16 16

/-- Other registers of the controller, which may switch the hardware stack (R446, R479). -/
def State.setPfic (s : State) (p : Pfic) : State := ({ s with pfic := p } : State).settleHpe s.hpeEnabled

/-- KEY1: NESTCTRL and HWSTKCTRL (R479). -/
def State.cfgrKey1 (s : State) (v : Word) : State := s.setPfic { s.pfic with cfgr := v.extractLsb' 0 2 }

/-- KEY2: the pending bits of NMI and of the exception slot (R479). DESIGN CHOICE, log entry 22, for R479 gives no order
of set and reset in one word: NMISET with NMIRESET leaves the bit free; EXCSET counts also beside EXCRESET, so that the
word is refused (D41). -/
def State.cfgrKey2 (s : State) (v : Word) : Res Unit :=
  let s1 := if v.getLsbD 5 then s.unpend 8 else s
  let s2 := if v.getLsbD 3 && !(v.getLsbD 2 && s.free.getLsbD 0) then s1.unpend 4 else s1
  let s3 := if v.getLsbD 2 && !(v.getLsbD 3 && !s.free.getLsbD 0) then s2.request 4 else s2
  if v.getLsbD 4 then .refuse .softwareException
  else .ok () (if v.getLsbD 2 && v.getLsbD 3 then s3.drawn else s3)

/-- The module reset: the controller's registers return to R472's values (R479, R593). DESIGN CHOICE, log entry 46: the
handlers being run are the core's, which the reset leaves untouched; inside a handler the nesting level stays, and
PFIC_GISR still shows it, while the active bits are cleared. -/
def State.pficReset (s : State) : State := s.setPfic Pfic.reset

/-- A write of PFIC_CFGR (R479): each bit acts only with its key in the same word; PFICRESET with any key (D24). DESIGN
CHOICE, log entry 44: the order in which the bits of one word act is not given; a word that sets PFICRESET makes the
module reset only, so its other bits but SYSRESET are dropped, EXCSET among them. -/
def State.writeCfgr (s : State) (v : Word) : Res Unit :=
  if cfgrKey v = 0xFA05 then .ok () (if v.getLsbD 6 then s.pficReset else s.cfgrKey1 v)
  else if cfgrKey v = 0xBCAF then (if v.getLsbD 6 then .ok () s.pficReset else s.cfgrKey2 v)
  else if cfgrKey v = 0xBEEF then
    .ok () (if v.getLsbD 7 then s.systemReset else if v.getLsbD 6 then s.pficReset else s)
  else .ok () s

/-- A write of PFIC_SCTLR (R484, R592): SYSRESET on V3B and V3C, SETEVENT, and the four control bits. -/
def State.writeSctlr (s : State) (v : Word) : State :=
  if s.cfg.model ≠ .v3a ∧ v.getLsbD 31 = true then s.systemReset
  else { s with
    pfic := { s.pfic with sctlr := v &&& 0x1E }
    eventLatch := s.eventLatch || v.getLsbD 5 }

/-- The bits of a VTF address register that hold what is written (R483). -/
def vtfMask (m : Model) : Word := if m = .v3a then 0xFF0FFFFF else 0xFFFFFFFF

/-- A write of a word register; a read-only register ignores it (R473). -/
def State.pficWrite (s : State) (r : PficReg) (v : Word) : Res Unit :=
  match r with
  | .isr _ => .ok () s
  | .ipr _ => .ok () s
  | .ithresdr =>
    .ok () { s with pfic := { s.pfic with ithresdr := v.extractLsb' 0 8 &&& threshMask s.cfg.model } }
  | .vtfbaddrr => .ok () { s with pfic := { s.pfic with vtfbaddrr := v &&& 0xF0000000 } }
  | .cfgr => s.writeCfgr v
  | .gisr => .ok () s
  | .vtfidr => .ok () { s with pfic := { s.pfic with vtfidr := v } }
  | .vtfaddrr k =>
    .ok () { s with
      pfic := { s.pfic with vtfaddrr := s.pfic.vtfaddrr.setIfInBounds k (v &&& vtfMask s.cfg.model) } }
  | .ienr x =>
    .ok () { s with pfic := { s.pfic with en := s.pfic.en ||| (groupBits v x &&& programmable s.cfg) } }
  | .irer x => .ok () { s with pfic := { s.pfic with en := s.pfic.en &&& ~~~groupBits v x } }
  | .ipsr x => s.softPend (groupBits v x)
  | .iprr x => .ok () (s.unpend (groupBits v x))
  | .iactr _ => .ok () s
  | .iprior _ => .ok () s
  | .sctlr => .ok () (s.writeSctlr v)

/-- A store to the controller (R473). -/
def State.pficStore (s : State) (w : Width) (a v : Word) : Res Unit :=
  match pficReg s.cfg.model (deviceOffset a) with
  | none => .fault (.storeAccess a)
  | some (.iprior n) => .ok () (s.setPrios w n v)
  | some r => if w = .word then s.pficWrite r v else .refuse (.deviceWidth a)

end Sys2Proof.Machine
end

