-- ==== Sys2Proof/Machine/SysTick.lean ====
section
/-! DEFINITION. The system timer (spec/62_systick_power_debug.md R530 to R540): counting, and its registers as loads
and stores reach them. -/

namespace Sys2Proof.Machine

/-! ## Counting (R537, D32) -/

/-- The bits of STK_CTLR a model has (R532). -/
def stkCtlrMask (m : Model) : Word := if m = .v3a then 0x1 else 0x1F

/-- One tick of a 64-bit up-counter (V3A): the new count, and whether it equals the compare value (R537, R540). -/
def tick64 (t : SysTick) : SysTick × Bool :=
  let c : BitVec 64 := (t.cnth ++ t.cntl) + 1
  ({ t with cntl := c.extractLsb' 0 32, cnth := c.extractLsb' 32 32 }, c == (t.cmph ++ t.cmpl : BitVec 64))

/-- The next count of a 32-bit counter: up or down, with reload after the end value (R532, R537). -/
def nextCount (t : SysTick) : Word :=
  if t.ctlr.getLsbD 4 then
    (if t.ctlr.getLsbD 3 ∧ t.cntl = 0 then t.cmpl else t.cntl - 1)
  else (if t.ctlr.getLsbD 3 ∧ t.cntl = t.cmpl then 0 else t.cntl + 1)

/-- One tick of a 32-bit counter (V3B, V3C): CNTIF is set when an up-count equals CMP or a down-count equals 0 (R537;
log entry 20). -/
def tick32 (t : SysTick) : SysTick :=
  let c := nextCount t
  let hit := if t.ctlr.getLsbD 4 then c == 0 else c == t.cmpl
  { t with cntl := c, sr := if hit then t.sr ||| 1 else t.sr }

/-- One tick of the selected clock. On V3A a match requests interrupt 12 once (R540). -/
def State.tick (s : State) : State :=
  if s.cfg.model = .v3a then
    (if (tick64 s.stk).2 then { s.request 0x1000 with stk := (tick64 s.stk).1 }
     else { s with stk := (tick64 s.stk).1 })
  else s.setStk (tick32 s.stk)

/-- Whether the counter counts: STE, not in Deep Sleep (R551), not in debug mode with `dcsr.stoptime` (R537). -/
def State.counting (s : State) : Bool :=
  s.stk.ctlr.getLsbD 0 && (match s.sleep with | .asleep true _ => false | _ => true) &&
    !(decide (s.dbg ≠ .running) && s.csr.dcsr.getLsbD 9)

/-- Whether the counter is clocked by HCLK itself; V3A has HCLK/8 only (R530, R532). -/
def State.fullClock (s : State) : Bool := decide (s.cfg.model ≠ .v3a) && s.stk.ctlr.getLsbD 2

/-- One period of HCLK (log entry 20). DESIGN CHOICE, log entry 20: the divider of HCLK/8 runs also while ndmreset holds
the system, so that its phase is any when the reset is released (R591 does not say). -/
def State.hclkPeriod (s : State) : State :=
  let p := { s with stk := { s.stk with div := s.stk.div + 1 } }
  if s.counting && (s.fullClock || s.stk.div == 7) then p.tick else p

/-- Several periods of HCLK. -/
def State.hclkPeriods (s : State) : Nat → State
  | 0 => s
  | k + 1 => State.hclkPeriods s.hclkPeriod k

/-! ## Registers (R531, R534) -/

/-- The register at an offset from 0xE000F000. -/
inductive StkReg where
  | ctlr | sr | cntl | cnth | cmpl | cmph
deriving DecidableEq, Repr

/-- The register map of R531. -/
def stkReg (m : Model) (off : Nat) : Option StkReg :=
  if m = .v3a then
    (if off < 4 then some .ctlr else if off < 8 then some .cntl else if off < 0xC then some .cnth
     else if off < 0x10 then some .cmpl else if off < 0x14 then some .cmph else none)
  else
    (if off < 4 then some .ctlr else if off < 8 then some .sr else if off < 0xC then some .cntl
     else if off < 0x10 then none else if off < 0x14 then some .cmpl else none)

/-- The value of a register. -/
def stkValue (t : SysTick) : StkReg → Word
  | .ctlr => t.ctlr
  | .sr => t.sr
  | .cntl => t.cntl
  | .cnth => t.cnth
  | .cmpl => t.cmpl
  | .cmph => t.cmph

/-- STK_CTLR and STK_SR take word accesses only (R534, D24). -/
def stkWordOnly : StkReg → Bool
  | .ctlr => true
  | .sr => true
  | _ => false

/-- The shift that brings the addressed byte lane down. -/
def laneShift (a : Word) : Nat := 8 * (a.extractLsb' 0 2).toNat

/-- A load from the timer (R534, R535). -/
def State.stkLoad (s : State) (w : Width) (a : Word) : Res Word :=
  match stkReg s.cfg.model (deviceOffset a) with
  | none => .fault (.loadAccess a)
  | some r =>
    if stkWordOnly r ∧ w ≠ .word then .refuse (.deviceWidth a)
    else .ok ((stkValue s.stk r >>> laneShift a) &&& widthMask w) s

/-- The register value after a store of some byte lanes (R103). -/
def mergeLanes (old v : Word) (w : Width) (a : Word) : Word :=
  (old &&& ~~~(widthMask w <<< laneShift a)) ||| ((v &&& widthMask w) <<< laneShift a)

/-- STK_SR after a write: SWIE takes the value written, CNTIF is cleared by a 0 and ignores a 1 (R533). -/
def srAfterWrite (old v : Word) : Word := (v &&& 0x80000000) ||| (old &&& v &&& 1)

/-- The timer after a write of a register. -/
def stkAfterWrite (m : Model) (t : SysTick) (r : StkReg) (w : Width) (a v : Word) : SysTick :=
  match r with
  | .ctlr => { t with ctlr := v &&& stkCtlrMask m }
  | .sr => { t with sr := srAfterWrite t.sr v }
  | .cntl => { t with cntl := mergeLanes t.cntl v w a }
  | .cnth => { t with cnth := mergeLanes t.cnth v w a }
  | .cmpl => { t with cmpl := mergeLanes t.cmpl v w a }
  | .cmph => { t with cmph := mergeLanes t.cmph v w a }

/-- A store to the timer. On V3A only byte stores write the counter and compare registers; wider ones are ignored
(R534, D24). -/
def State.stkStore (s : State) (w : Width) (a v : Word) : Res Unit :=
  match stkReg s.cfg.model (deviceOffset a) with
  | none => .fault (.storeAccess a)
  | some r =>
    if stkWordOnly r then
      (if w = .word then .ok () (s.setStk (stkAfterWrite s.cfg.model s.stk r w a v)) else .refuse (.deviceWidth a))
    else if s.cfg.model = .v3a ∧ w ≠ .byte then .ok () s
    else .ok () (s.setStk (stkAfterWrite s.cfg.model s.stk r w a v))

end Sys2Proof.Machine
end

