-- ==== Sys2Proof/Machine/Access.lean ====
section
/-! DEFINITION. Data accesses (spec/20_memory.md R110, spec/62_systick_power_debug.md R578): hardware triggers, the
order of checks, what an access reaches, and the loads, stores and read-modify-writes the meanings call. -/

namespace Sys2Proof.Machine

/-! ## Hardware triggers (R577, R578) -/

/-- How many trigger channels there are: none on V3A, at most 4 (R577). -/
def State.channels (s : State) : Nat := if s.cfg.model = .v3a then 0 else Nat.min s.cfg.triggerChannels 4

/-- Whether tdata1 enables a kind of access: EXECUTE; LOAD and STORE on V3C only (R52, R578). -/
def triggerKind (m : Model) (t1 : Word) : Access → Bool
  | .fetch => t1.getLsbD 2
  | .load => decide (m = .v3c) && t1.getLsbD 0
  | .store => decide (m = .v3c) && t1.getLsbD 1
  | .amo => decide (m = .v3c) && (t1.getLsbD 0 || t1.getLsbD 1)

/-- Whether tdata1 enables a mode (R52). -/
def triggerMode (t1 : Word) (p : Priv) : Bool := if p = .machine then t1.getLsbD 6 else t1.getLsbD 3

/-- The address comparison: equality, or the bits above the lowest 0 bit of tdata2 (R578). A range of more than 2^31
bytes is not defined (log entry 26). -/
def triggerAddress (t1 t2 a : Word) : Bool :=
  if t1.getLsbD 7 then
    (if trailingOnes 32 t2.toNat < 31 then
      a.toNat / 2 ^ (trailingOnes 32 t2.toNat + 1) == t2.toNat / 2 ^ (trailingOnes 32 t2.toNat + 1)
     else Config.undefinedTrigger t2 a)
  else a == t2

/-- Whether channel k matches an access (R578). -/
def State.triggerMatches (s : State) (k : Access) (a : Word) (ch : Nat) : Bool :=
  match s.csr.tdata1[ch]?, s.csr.tdata2[ch]? with
  | some t1, some t2 => triggerKind s.cfg.model t1 k && triggerMode t1 s.priv && triggerAddress t1 t2 a
  | _, _ => false

/-- The ACTION bit of the lowest-numbered matching channel (R578). DESIGN CHOICE, log entry 26: the order of the
channels, and that none fires in debug mode, so none for an access of the program buffer. -/
def State.firedTrigger (s : State) (k : Access) (a : Word) : Option Bool :=
  if s.dbg ≠ .running then none
  else match (List.range s.channels).find? (s.triggerMatches k a) with
    | none => none
    | some ch => (s.csr.tdata1[ch]?).map fun t1 => t1.getLsbD 12

/-! ## The checks (R110, R424) -/

/-- The exception of a misaligned access (R106). -/
def misalignedExc (k : Access) (a : Word) : Exc :=
  if k = .load then .loadAddressMisaligned a else .storeAddressMisaligned a

/-- The fault of an access the PMP denies or no memory backs (R115, R152, D8). -/
def accessFault (k : Access) (a : Word) : Fault := if k = .load then .loadAccess a else .storeAccess a

/-- Trigger, alignment, PMP, in that order (R110, R424, D14). -/
def State.checkAccess (s : State) (k : Access) (w : Width) (a : Word) : Res Unit :=
  match s.firedTrigger k a with
  | some true => .trigger
  | some false => .raise (.breakpoint s.pc)
  | none =>
    if aligned w a = false then .raise (misalignedExc k a)
    else if s.pmpAllows k a then .ok () s
    else .fault (accessFault k a)

/-! ## What an access reaches (R112) -/

/-- Go on with the result of an operation that completed. -/
def Res.bind {α β : Type} (r : Res α) (k : α → State → Res β) : Res β :=
  match r with
  | .ok a s => k a s
  | .raise e => .raise e
  | .trigger => .trigger
  | .fault f => .fault f
  | .refuse f => .refuse f

/-- The byte offset of an address from data0 of the debug module, as the core sees it (R566). -/
def State.debugWord (s : State) (a : Word) : Nat := a.toNat - (0xE0000000 + s.cfg.dataAddr.toNat)

/-- A load of the core from data0 or data1: word accesses (R566; log entry 27). -/
def State.debugLoad (s : State) (w : Width) (a : Word) : Res Word :=
  if w = .word ∧ s.debugWord a = 0 then .ok s.dm.data0 s
  else if w = .word ∧ s.debugWord a = 4 then .ok s.dm.data1 s
  else .refuse (.deviceWidth a)

/-- A store of the core to data0 or data1 (R566). DESIGN CHOICE, log entry 27: it is kept also while dmactive is 0, for
neither R562 nor R566 says that the words take no stores in the module's reset. -/
def State.debugStore (s : State) (w : Width) (a v : Word) : Res Unit :=
  if w = .word ∧ s.debugWord a = 0 then .ok () { s with dm := { s.dm with data0 := v } }
  else if w = .word ∧ s.debugWord a = 4 then .ok () { s with dm := { s.dm with data1 := v } }
  else .refuse (.deviceWidth a)

/-- The read of an access that passed the checks, zero-extended (R103, R110). -/
def State.readTarget (s : State) (w : Width) (a : Word) : Res Word :=
  match s.target a with
  | .memory => .ok (Memory.load s.mem w a) s
  | .pfic => s.pficLoad w a
  | .sysTick => s.stkLoad w a
  | .debugData => s.debugLoad w a
  | .chipDevice => .refuse (.chipDevice a)
  | .unmapped => .fault (.loadAccess a)

/-- A store by the hart to the reserved word leaves it undefined whether the reservation is valid (R301). -/
def doubtWord (r : Option Reservation) (a : Word) : Option Reservation :=
  r.map fun v => if v.addr = a &&& 0xFFFFFFFC then { v with certain := false } else v

/-- Another agent's store to the reserved word ends the reservation (R301). -/
def dropWord (r : Option Reservation) (a : Word) : Option Reservation :=
  match r with
  | none => none
  | some v => if v.addr = a &&& 0xFFFFFFFC then none else some v

/-- What a store to a word of memory or of a device does to the reservation: a store of the program buffer is another
agent's, every other one is the hart's own (R121, R301; log entry 9). -/
def State.storedAt (s : State) (a : Word) : State :=
  { s with resv := if s.dbg = .progbuf then dropWord s.resv a else doubtWord s.resv a }

/-- A store to memory (R103, R124, R301). -/
def State.storeMemory (s : State) (w : Width) (a v : Word) : State := (s.storedAt a).writeBytes (storeCells w a v)

/-- The write of an access that passed the checks (R103, R110). -/
def State.writeTarget (s : State) (w : Width) (a v : Word) : Res Unit :=
  match s.target a with
  | .memory => .ok () (s.storeMemory w a v)
  | .pfic => (s.storedAt a).pficStore w a v
  | .sysTick => (s.storedAt a).stkStore w a v
  | .debugData => (s.storedAt a).debugStore w a v
  | .chipDevice => .refuse (.chipDevice a)
  | .unmapped => .fault (.storeAccess a)

/-! ## Loads, stores, read-modify-writes -/

/-- `MemRead(a, n)` (R12, R110). -/
def State.loadData (s : State) (w : Width) (a : Word) : Res Word :=
  (s.checkAccess .load w a).bind fun _ _ => s.readTarget w a

/-- A load instruction of `len` bytes: the extended value to rd (R255). -/
def State.loadInstr (s : State) (w : Width) (ext : Word → Word) (rd : Reg) (a : Word) (len : Word) : Outcome :=
  s.run (s.loadData w a) fun v s' => s'.retire rd (ext v) len

/-- `MemWrite(a, n, v)` checked at `s` and performed on `done`, the state with the instruction's other effects, so that
a store that resets the system is its last effect (R12, R110, R592). -/
def State.storeData (s : State) (w : Width) (a v : Word) (done : State) : Res Unit :=
  (s.checkAccess .store w a).bind fun _ _ => done.writeTarget w a v

/-- A store instruction of `len` bytes (R259). -/
def State.storeInstr (s : State) (w : Width) (a v : Word) (len : Word) : Outcome :=
  s.run (s.storeData w a v (s.advance len)) fun _ s' => .next s'

/-- An access error of a read-modify-write has the store's code (R152, R315). -/
def Res.asStore {α : Type} : Res α → Res α
  | .fault (.loadAccess a) => .fault (.storeAccess a)
  | r => r

/-- An atomic read-modify-write of a word, whose old value goes to rd (R302, R316). -/
def State.amoData (s : State) (f : Word → Word → Word) (rd : Reg) (a v : Word) : Res Unit :=
  (s.checkAccess .amo .word a).bind fun _ _ =>
    (s.readTarget .word a).asStore.bind fun t s' => ((s'.writeReg rd t).advance 4).writeTarget .word a (f t v)

end Sys2Proof.Machine
end

