-- ==== Sys2Proof/Machine/Csr.lean ====
section
/-! DEFINITION. The control and status registers: which exist (spec/10_state.md R38, R61), who may reach them (R37,
R276), what they read as and what a write does to each (R39 to R60), and the common operation of the six CSR
instructions (R275). -/

namespace Sys2Proof.Machine

/-- The registers of R38. -/
inductive CsrName where
  | marchid | mimpid | mstatus | misa | mtvec | mscratch | mepc | mcause | mtval
  | pmpcfg0 | pmpaddr (i : Nat)
  | tselect | tdata1 | tdata2 | dcsr | dpc | dscratch0 | dscratch1
  | gintenr | intsyscr | corecfgr | inestcr
deriving DecidableEq, Repr

/-- The registers every model has. -/
def commonCsr (a : BitVec 12) : Option CsrName :=
  match a with
  | 0xF12#12 => some .marchid
  | 0xF13#12 => some .mimpid
  | 0x300#12 => some .mstatus
  | 0x301#12 => some .misa
  | 0x305#12 => some .mtvec
  | 0x340#12 => some .mscratch
  | 0x341#12 => some .mepc
  | 0x342#12 => some .mcause
  | 0x343#12 => some .mtval
  | 0x7B0#12 => some .dcsr
  | 0x7B1#12 => some .dpc
  | 0x7B2#12 => some .dscratch0
  | 0x7B3#12 => some .dscratch1
  | _ => none

/-- The registers of V3B and V3C. -/
def vendorCsr (a : BitVec 12) : Option CsrName :=
  match a with
  | 0x7A0#12 => some .tselect
  | 0x7A1#12 => some .tdata1
  | 0x7A2#12 => some .tdata2
  | 0x800#12 => some .gintenr
  | 0x804#12 => some .intsyscr
  | 0xBC0#12 => some .corecfgr
  | 0xBC1#12 => some .inestcr
  | _ => none

/-- The PMP registers, of V3C only (R49, R50). -/
def pmpCsr (a : BitVec 12) : Option CsrName :=
  match a with
  | 0x3A0#12 => some .pmpcfg0
  | 0x3B0#12 => some (.pmpaddr 0)
  | 0x3B1#12 => some (.pmpaddr 1)
  | 0x3B2#12 => some (.pmpaddr 2)
  | 0x3B3#12 => some (.pmpaddr 3)
  | _ => none

/-- The register at an address, on a model (R38, R61, R276 step 1). -/
def csrName (m : Model) (a : BitVec 12) : Option CsrName :=
  match commonCsr a with
  | some c => some c
  | none =>
    match m with
    | .v3a => none
    | .v3b => vendorCsr a
    | .v3c => (match vendorCsr a with | some c => some c | none => pmpCsr a)

/-- The registers of debug mode (R37, R276 step 2). -/
def debugOnly : CsrName → Bool
  | .dcsr => true
  | .dpc => true
  | .dscratch0 => true
  | .dscratch1 => true
  | _ => false

/-- The access check of R276, steps 2 to 5, for a register that exists. -/
def State.csrMayAccess (s : State) (c : CsrName) (a : BitVec 12) (doesWrite : Bool) : Bool :=
  !(debugOnly c && decide (s.dbg = .running)) &&
  !(decide (s.effPriv = .user) && a.extractLsb' 8 2 != 0) &&
  !(decide (c = .intsyscr) && s.csr.intsyscr.getLsbD 31 && decide (s.effPriv = .user)) &&
  !(doesWrite && a.extractLsb' 10 2 == 3)

/-- The register an access may reach (R276). -/
def State.csrAllowed (s : State) (a : BitVec 12) (doesWrite : Bool) : Option CsrName :=
  match csrName s.cfg.model a with
  | none => none
  | some c => if s.csrMayAccess c a doesWrite then some c else none

/-! ## Values (R39 to R60, R277) -/

/-- `marchid` (R44). -/
def marchidValue (m : Model) : Word :=
  match m with
  | .v3a => 0
  | .v3b => 0xDC68D862
  | .v3c => 0xDC68D863

/-- `mimpid` (R45). -/
def mimpidValue (c : Config) : Word :=
  if c.model = .v3a then 0
  else 0xDC688000 ||| (c.mimpidMinor.zeroExtend 32 <<< 4) ||| c.mimpidMajor.zeroExtend 32

/-- `misa` (R41). -/
def misaValue (c : Config) : Word :=
  if c.model = .v3a then 0x40101105 else 0x40000000 ||| c.misaExt.zeroExtend 32

/-- The thermometer code of the nesting level (R60, R64). -/
def nestSta (level : Nat) : Word :=
  match level with
  | 0 => 0
  | 1 => 1
  | 2 => 3
  | 3 => 7
  | _ => 15

/-- Whether the selected trigger channel exists (R51, R577). -/
def State.channelExists (s : State) : Bool := decide (s.csr.tselect.toNat < s.channels)

/-- The selected channel's tdata1 or tdata2; a channel that does not exist reads as a free value (log entry 26). -/
def State.channelValue (s : State) (v : Vector Word 4) : Res Word :=
  if s.channelExists then .ok v[s.csr.tselect.toNat] s else .ok s.free s.drawn

/-- pmpaddr<i> as it reads: its two unused bits are free (R142, I18; log entry 13). -/
def State.pmpaddrValue (s : State) (i : Nat) : Res Word :=
  .ok ((s.free.extractLsb' 30 2) ++ (s.csr.pmpaddr[i]?.getD 0)) s.drawn

/-- What a read returns (R277). -/
def State.csrValue (s : State) : CsrName → Res Word
  | .marchid => .ok (marchidValue s.cfg.model) s
  | .mimpid => .ok (mimpidValue s.cfg) s
  | .mstatus => .ok s.csr.mstatus s
  | .misa => .ok (misaValue s.cfg) s
  | .mtvec => .ok s.csr.mtvec s
  | .mscratch => .ok s.csr.mscratch s
  | .mepc => .ok s.csr.mepc s
  | .mcause => .ok s.csr.mcause s
  | .mtval => .ok s.csr.mtval s
  | .pmpcfg0 => .ok s.csr.pmpcfg0 s
  | .pmpaddr i => s.pmpaddrValue i
  | .tselect => .ok (s.csr.tselect.zeroExtend 32) s
  | .tdata1 => s.channelValue s.csr.tdata1
  | .tdata2 => s.channelValue s.csr.tdata2
  | .dcsr => .ok s.csr.dcsr s
  | .dpc => .ok s.csr.dpc s
  | .dscratch0 => .ok s.csr.dscratch0 s
  | .dscratch1 => .ok s.csr.dscratch1 s
  | .gintenr => .ok s.csr.mstatus s
  | .intsyscr => .ok s.csr.intsyscr s
  | .corecfgr => .ok s.csr.corecfgr s
  | .inestcr => .ok (s.csr.inestcr ||| (nestSta s.level <<< 8)) s

/-! ## Writes (R39 to R60, R277) -/

/-- A state with its CSRs changed. -/
def State.setCsr (s : State) (c : Csrs) : State := { s with csr := c }

/-- `mstatus`: the values 0b01 and 0b10 of MPP are reserved (R40, D23; log entry 14). -/
def State.writeMstatus (s : State) (v : Word) : Res Unit :=
  if v.extractLsb' 11 2 = 1 ∨ v.extractLsb' 11 2 = 2 then .refuse (.reservedValue 0x300)
  else .ok () (s.setCsr { s.csr with mstatus := v &&& 0x1888 })

/-- `mtvec`: bits [9:2] are fixed 0, MODE1 on V3B and V3C only (R42, D35). -/
def State.writeMtvec (s : State) (v : Word) : State :=
  s.setCsr { s.csr with mtvec := v &&& (if s.cfg.model = .v3a then 0xFFFFFC01 else 0xFFFFFC03) }

/-- A PMP field after a write (R141, R151): its reserved bits read 0; a locked field keeps its value, but where
`PMP_LOCK_CLEARABLE` holds a write that clears L takes effect (D19; log entry 13). -/
def pmpFieldAfter (clearable : Bool) (old v : Byte) : Byte :=
  if old.getLsbD 7 && !(clearable && !v.getLsbD 7) then old else v &&& 0x9F

/-- The reserved combination R = 0, W = 1 (R153). -/
def pmpFieldReserved (b : Byte) : Bool := b.getLsbD 1 && !b.getLsbD 0

/-- `pmpcfg0`, field by field (R49, R141, R151, R153). -/
def State.writePmpcfg (s : State) (v : Word) : Res Unit :=
  let f (i : Nat) := pmpFieldAfter s.cfg.pmpLockClearable (pmpCfgByte s.csr i) (v.extractLsb' (8 * i) 8)
  if pmpFieldReserved (f 0) || pmpFieldReserved (f 1) || pmpFieldReserved (f 2) || pmpFieldReserved (f 3) then
    .refuse (.reservedValue 0x3A0)
  else .ok () (s.setCsr { s.csr with pmpcfg0 := f 3 ++ f 2 ++ f 1 ++ f 0 })

/-- Whether pmpaddr<i> is locked: by its own field, or as the lower bound of a locked TOR region (R151). -/
def pmpaddrLocked (c : Csrs) (i : Nat) : Bool :=
  (pmpCfgByte c i).getLsbD 7 ||
    (decide (i < 3) && (pmpCfgByte c (i + 1)).getLsbD 7 && pmpMode (pmpCfgByte c (i + 1)) == 1)

/-- `pmpaddr<i>` (R50, R142, R151). -/
def State.writePmpaddr (s : State) (i : Nat) (v : Word) : State :=
  if pmpaddrLocked s.csr i then s
  else s.setCsr { s.csr with pmpaddr := s.csr.pmpaddr.setIfInBounds i (v.extractLsb' 0 30) }

/-- `tdata1`: only debug mode may change it, DMODE being fixed 1 (R52, R577). DESIGN CHOICE, log entry 14: a value of
TYPE other than 2 is ignored like every write of a read-only field (R39, D9), though I5 lists it as refused. -/
def State.writeTdata1 (s : State) (v : Word) : State :=
  if s.dbg ≠ .running ∧ s.channelExists = true then
    s.setCsr { s.csr with
      tdata1 := s.csr.tdata1.setIfInBounds s.csr.tselect.toNat ((v &&& 0x10CF) ||| 0x2BE00000) }
  else s

/-- `tdata2`, likewise (R53, R577). -/
def State.writeTdata2 (s : State) (v : Word) : State :=
  if s.dbg ≠ .running ∧ s.channelExists = true then
    s.setCsr { s.csr with tdata2 := s.csr.tdata2.setIfInBounds s.csr.tselect.toNat v }
  else s

/-- `dcsr`: prv takes 0 or 3 (R54, D23). DESIGN CHOICE, log entry 14: what is written to cause, a read-only field, is
ignored (R39, D9), though I5 lists its other values as refused. -/
def State.writeDcsr (s : State) (v : Word) : Res Unit :=
  if v.extractLsb' 0 2 = 1 ∨ v.extractLsb' 0 2 = 2 then .refuse (.reservedValue 0x7B0)
  else .ok () (s.setCsr { s.csr with dcsr := (s.csr.dcsr &&& 0xFFFF65F8) ||| (v &&& 0x9A07) })

/-- `gintenr`: bits 3 and 7 of mstatus, while `corecfgr.IE_REMAP_EN` is set (R57). -/
def State.writeGintenr (s : State) (v : Word) : State :=
  if s.csr.corecfgr.getLsbD 5 then
    s.setCsr { s.csr with mstatus := (s.csr.mstatus &&& ~~~0x88) ||| (v &&& 0x88) }
  else s

/-- The bits of `intsyscr` that hold what is written: HWSTKEN, and on later versions INESTEN and PMTCFG (R58; log entry
36). -/
def intsyscrMask (c : Config) : Word := if c.pmtcfgImplemented then 0xF else 0x1

/-- `intsyscr`: GIHWSTKNEN is set by a 1 and not cleared by a 0; LOCK is read-only (R58, R277). It may switch the
hardware stack (R446). -/
def State.writeIntsyscr (s : State) (v : Word) : State :=
  (s.setCsr { s.csr with
    intsyscr := (s.csr.intsyscr &&& ~~~intsyscrMask s.cfg) ||| (v &&& intsyscrMask s.cfg) ||| (v &&& 0x20) }).settleHpe
      s.hpeEnabled

/-- `corecfgr`: FETCH_MODE 0b10 is reserved (R59, D23). -/
def State.writeCorecfgr (s : State) (v : Word) : Res Unit :=
  if v.extractLsb' 0 2 = 2 then .refuse (.reservedValue 0xBC0)
  else .ok () (s.setCsr { s.csr with corecfgr := v &&& 0xAF })

/-- `inestcr`: NEST_OV is cleared by a 1, NEST_LVL stores 01 for every value but 00 (R60). -/
def State.writeInestcr (s : State) (v : Word) : State :=
  s.setCsr { s.csr with
    inestcr := (s.csr.inestcr &&& 0x40000000 &&& ~~~v) ||| (if v.extractLsb' 0 2 = 0 then 0 else 1) }

/-- What a write does (R277). -/
def State.csrWrite (s : State) (c : CsrName) (v : Word) : Res Unit :=
  match c with
  | .marchid => .ok () s
  | .mimpid => .ok () s
  | .mstatus => s.writeMstatus v
  | .misa => .ok () s
  | .mtvec => .ok () (s.writeMtvec v)
  | .mscratch => .ok () (s.setCsr { s.csr with mscratch := v })
  | .mepc => .ok () (s.setCsr { s.csr with mepc := clearBit0 v })
  | .mcause => .ok () (s.setCsr { s.csr with mcause := v })
  | .mtval => .ok () (s.setCsr { s.csr with mtval := v })
  | .pmpcfg0 => s.writePmpcfg v
  | .pmpaddr i => .ok () (s.writePmpaddr i v)
  | .tselect => .ok () (s.setCsr { s.csr with tselect := v.extractLsb' 0 2 })
  | .tdata1 => .ok () (s.writeTdata1 v)
  | .tdata2 => .ok () (s.writeTdata2 v)
  | .dcsr => s.writeDcsr v
  | .dpc => .ok () (s.setCsr { s.csr with dpc := v })
  | .dscratch0 => .ok () (s.setCsr { s.csr with dscratch0 := v })
  | .dscratch1 => .ok () (s.setCsr { s.csr with dscratch1 := v })
  | .gintenr => .ok () (s.writeGintenr v)
  | .intsyscr => .ok () (s.writeIntsyscr v)
  | .corecfgr => s.writeCorecfgr v
  | .inestcr => .ok () (s.writeInestcr v)

/-! ## The CSR instructions (R275) -/

/-- Write, set bits, clear bits. -/
inductive CsrOp where
  | write | set | clear
deriving DecidableEq, Repr

/-- The new value (R275). -/
def csrNew (op : CsrOp) (old src : Word) : Word :=
  match op with
  | .write => src
  | .set => old ||| src
  | .clear => old &&& ~~~src

/-- The common operation (R275): `zeroField` is whether the rs1 or uimm field is 0, `bits` the instruction word. -/
def State.csrInstr (s : State) (op : CsrOp) (rd : Reg) (a : BitVec 12) (src : Word) (zeroField : Bool) (bits : Word) :
    Outcome :=
  let doesRead := !(decide (op = .write) && decide (rd = 0))
  let doesWrite := decide (op = .write) || !zeroField
  match s.csrAllowed a doesWrite with
  | none => s.raiseExc (.illegalInstruction bits)
  | some c =>
    s.run (if doesRead then s.csrValue c else .ok 0 s) fun old s1 =>
      s.run (if doesWrite then s1.csrWrite c (csrNew op old src) else .ok () s1) fun _ s2 => s2.retire rd old 4

end Sys2Proof.Machine
end

