-- ==== Sys2Proof/Machine/Debug.lean ====
section
/-! DEFINITION. The debug module (spec/62_systick_power_debug.md R560 to R576): its registers as the debug host reaches
them, halt, resume and reset, and the abstract commands. -/

namespace Sys2Proof.Machine

/-- A state with its debug module changed. -/
def State.setDm (s : State) (d : DebugModule) : State := { s with dm := d }

/-- An error of an abstract command (R565). DESIGN CHOICE, log entry 27: while cmderr is not 0 a further error does not
change it; the first one stays until the host clears it. -/
def State.setCmderr (s : State) (e : BitVec 3) : State :=
  s.setDm { s.dm with cmderr := if s.dm.cmderr = 0 then e else s.dm.cmderr }

/-- A command executes: the program buffer is being run (R565). -/
def State.dmBusy (s : State) : Bool := decide (s.dbg = .progbuf)

/-! ## Registers as the host reads them -/

/-- `dmstatus` (R563); while the module is in reset, its reset value (R561). DESIGN CHOICE, log entry 27: while
`ndmreset` holds the core it reads as unavailable, neither running nor halted. -/
def State.dmstatus (s : State) : Word :=
  if s.dm.dmactive then
    0x82 ||| (if s.dm.havereset then 0xC0000 else 0) ||| (if s.dm.resumeack then 0x30000 else 0) |||
      (match s.dbg with
      | .heldInReset => 0x3000
      | .running => 0xC00
      | .halted => 0x300
      | .progbuf => 0x300)
  else 0x82

/-- `haltsum0` (R569). -/
def State.haltsum (s : State) : Word :=
  match s.dbg with
  | .halted => 1
  | .progbuf => 1
  | .running => 0
  | .heldInReset => 0

/-- A register of the debug module (R560). -/
inductive DmReg where
  | data (k : Nat) | dmcontrol | dmstatus | hartinfo | abstractcs | command | abstractauto | progbuf (k : Nat)
  | haltsum0
deriving DecidableEq, Repr

/-- The register at a 7-bit address (R560). -/
def dmReg (a : BitVec 7) : Option DmReg :=
  match a with
  | 0x04#7 => some (.data 0)
  | 0x05#7 => some (.data 1)
  | 0x10#7 => some .dmcontrol
  | 0x11#7 => some .dmstatus
  | 0x12#7 => some .hartinfo
  | 0x16#7 => some .abstractcs
  | 0x17#7 => some .command
  | 0x18#7 => some .abstractauto
  | 0x20#7 => some (.progbuf 0)
  | 0x21#7 => some (.progbuf 1)
  | 0x22#7 => some (.progbuf 2)
  | 0x23#7 => some (.progbuf 3)
  | 0x24#7 => some (.progbuf 4)
  | 0x25#7 => some (.progbuf 5)
  | 0x26#7 => some (.progbuf 6)
  | 0x27#7 => some (.progbuf 7)
  | 0x40#7 => some .haltsum0
  | _ => none

/-- What a register reads as (R561 to R569); the write-only command register reads 0. -/
def State.dmValue (s : State) : DmReg → Word
  | .data k => if k = 0 then s.dm.data0 else s.dm.data1
  | .dmcontrol => (if s.dm.ndmreset then 2 else 0) ||| (if s.dm.dmactive then 1 else 0)
  | .dmstatus => s.dmstatus
  | .hartinfo => 0x00312000 ||| s.cfg.dataAddr.zeroExtend 32
  | .abstractcs => 0x08000002 ||| (if s.dmBusy then 0x1000 else 0) ||| (s.dm.cmderr.zeroExtend 32 <<< 8)
  | .command => 0
  | .abstractauto => (s.dm.autoexecProgbuf.zeroExtend 32 <<< 16) ||| s.dm.autoexecData.zeroExtend 32
  | .progbuf k => s.dm.progbuf[k]?.getD 0
  | .haltsum0 => s.haltsum

/-! ## Halt, resume, reset (R562, R575, R591) -/

/-- Leaving debug mode (R575): pc from dpc, bit 0 ignored (D3), the mode from dcsr.prv. -/
def State.resume (s : State) : State :=
  { s with
    pc := clearBit0 s.csr.dpc
    priv := if s.csr.dcsr.extractLsb' 0 2 = 3 then .machine else .user
    dbg := .running
    dm := { s.dm with resumeack := true } }

/-- The system but the debug module is reset and held (R562, R591). -/
def State.holdReset (s : State) : State :=
  { s.systemReset with dm := { s.dm with ndmreset := true }, dbg := .heldInReset }

/-- The reset is released: have-reset is set, and a halt request leads directly to debug mode (R562, R570, R591). DESIGN
CHOICE, log entry 29: dpc is then the reset vector, for R55 and R571 give no dpc for this cause. -/
def State.releaseReset (s : State) : State :=
  let r := s.setDm { s.dm with ndmreset := false, havereset := true }
  if r.dm.haltreq then r.enterDebug 5 r.pc else { r with dbg := .running }

/-- The request bits of a dmcontrol write (R562). DESIGN CHOICE, log entry 27: every write with resumereq = 1 clears
resumeack, also where no resume follows (R563 does not say when it returns to 0). -/
def State.dmcontrolRequests (s : State) (v : Word) : State :=
  s.setDm { s.dm with
    haltreq := v.getLsbD 31
    havereset := s.dm.havereset && !v.getLsbD 28
    resumeack := s.dm.resumeack && !v.getLsbD 30 }

/-- A write of dmcontrol (R562): dmactive = 0 resets the module; ndmreset; resumereq, which a halt request beats. DESIGN
CHOICE, log entry 27: a write that sets dmactive from 0 sets nothing else; when dmactive is cleared a halted core stays
halted and a core in the program buffer goes on in it (every word of it now 0), so that haltsum0 reads 1; a resumereq
while the program buffer runs is dropped but for clearing resumeack, and the core halts again at the end of the run; a
write of dmactive = 0 while it is 0 does nothing, so that what the core stored in data0 and data1 meanwhile stays. -/
def State.writeDmcontrol (s : State) (v : Word) : State :=
  if !s.dm.dmactive then (if v.getLsbD 0 then s.setDm { s.dm with dmactive := true } else s)
  else if !v.getLsbD 0 then
    { s with dm := DebugModule.reset, dbg := if s.dbg = .heldInReset then .running else s.dbg }
  else
    let r := s.dmcontrolRequests v
    if v.getLsbD 1 then r.holdReset
    else if r.dbg = .heldInReset then r.releaseReset
    else if v.getLsbD 30 && !v.getLsbD 31 && decide (r.dbg = .halted) then r.resume
    else r

/-! ## Abstract commands (R565 to R568) -/

/-- The size field of a command; the sizes 64 and 128 are not supported (R567, R568). -/
def commandWidth (c : Word) : Option Width :=
  match c.extractLsb' 20 3 with
  | 0#3 => some .byte
  | 1#3 => some .half
  | 2#3 => some .word
  | _ => none

/-- A value of which a transfer of a width fixes the low bits: the others are free (log entry 27). -/
def State.narrow (s : State) (w : Width) (v : Word) : Word × State :=
  if w = .word then (v, s) else ((v &&& widthMask w) ||| (s.free &&& ~~~widthMask w), s.drawn)

/-- After the transfer, the program buffer if the command asks for it (R567, R568). -/
def State.postexec (s : State) : State :=
  if s.dm.command.getLsbD 18 then { s with dbg := .progbuf, pc := 0 } else s

/-- aarpostincrement: regno grows by one after an access (R567). -/
def State.nextRegno (s : State) : State :=
  if s.dm.command.getLsbD 19 then
    s.setDm { s.dm with command := s.dm.command.extractLsb' 16 16 ++ (s.dm.command.extractLsb' 0 16 + 1) }
  else s

/-- The value of the register a command names: a CSR, a general register, or none of them (R567). An access a CSR
instruction could not make is an exception (R565). -/
def State.commandRead (s : State) (regno : Half) : Except (BitVec 3) (Res Word) :=
  if regno.extractLsb' 12 4 = 0 then
    match s.csrAllowed (regno.extractLsb' 0 12) false with
    | some c => .ok (s.csrValue c)
    | none => .error 3
  else if regno.extractLsb' 5 11 = 0x80 then .ok (.ok (s.readReg (regno.extractLsb' 0 5)) s)
  else .error 2

/-- The write of the register a command names. -/
def State.commandWrite (s : State) (regno : Half) (v : Word) : Except (BitVec 3) (Res Unit) :=
  if regno.extractLsb' 12 4 = 0 then
    match s.csrAllowed (regno.extractLsb' 0 12) true with
    | some c => .ok (s.csrWrite c v)
    | none => .error 3
  else if regno.extractLsb' 5 11 = 0x80 then .ok (.ok () (s.writeReg (regno.extractLsb' 0 5) v))
  else .error 2

/-- The result of a register transfer: an error code; a reserved CSR value is not supported (R565; log entry 14). -/
def State.finishRegister {α : Type} (s : State) (r : Except (BitVec 3) (Res α)) (k : α → State → State) : State :=
  match r with
  | .error e => s.setCmderr e
  | .ok (.ok a s') => (k a s').nextRegno.postexec
  | .ok _ => s.setCmderr 2

/-- The access-register command (R567). DESIGN CHOICE, log entry 27: with transfer = 0 neither the size nor regno is
looked at, so that no size is an error, and aarpostincrement adds nothing, for there is no access it could follow. The
copy of a register to data0 is no store to the word the core sees (log entry 9). -/
def State.accessRegister (s : State) : State :=
  let c := s.dm.command
  if c.getLsbD 17 = false then s.postexec
  else match commandWidth c with
    | none => s.setCmderr 2
    | some w =>
      if c.getLsbD 16 then
        let (v, s1) := s.narrow w s.dm.data0
        s.finishRegister (s1.commandWrite (c.extractLsb' 0 16) v) fun _ s' => s'
      else
        s.finishRegister (s.commandRead (c.extractLsb' 0 16)) fun v s' =>
          let (x, s2) := s'.narrow w v
          s2.setDm { s2.dm with data0 := x }

/-- aampostincrement: the address in data1 grows by the width (R568). -/
def State.nextAddress (s : State) (w : Width) : State :=
  if s.dm.command.getLsbD 19 then
    s.setDm { s.dm with data1 := s.dm.data1 + BitVec.ofNat 32 (widthBytes w) }
  else s

/-- The result of a memory transfer: a fault is a bus error (R565). -/
def State.finishMemory {α : Type} (s : State) (r : Res α) (k : α → State → State) : Res Unit :=
  match r with
  | .ok a s' => .ok () (k a s')
  | .raise _ => .ok () (s.setCmderr 3)
  | .trigger => .ok () (s.setCmderr 3)
  | .fault _ => .ok () (s.setCmderr 5)
  | .refuse e => .refuse e

/-- The value a memory write stores: data0, or combined with the memory word (R568). -/
def commandCombine (kind : BitVec 2) (old v : Word) : Word :=
  match kind with
  | 2#2 => old ||| v
  | 3#2 => old + v
  | _ => v

/-- What follows a memory write to an address: the postincrement, which adds to what data1 then holds (the write may be
to data1's own word, R566), the program buffer, and the end of a reservation of the word (R568, R301; log entry 9). -/
def State.memoryDone (s : State) (w : Width) (a : Word) : State :=
  { (s.nextAddress w).postexec with resv := dropWord s.resv a }

/-- The write of an access-memory command; the combining kinds take words only (R568). -/
def State.memoryWrite (s : State) (w : Width) : Res Unit :=
  let c := s.dm.command
  let a := s.dm.data1
  if c.getLsbD 15 then
    (if w ≠ .word then .ok () (s.setCmderr 2)
     else s.finishMemory
      ((s.readTarget w a).bind fun old s' =>
        s'.writeTarget w a (commandCombine (c.extractLsb' 14 2) old s.dm.data0)) fun _ s' => s'.memoryDone w a)
  else s.finishMemory (s.writeTarget w a s.dm.data0) fun _ s' => s'.memoryDone w a

/-- The access-memory command (R568): not on V3A; a misaligned address is an exception (R106). DESIGN CHOICE, log entry
27: of several errors of one command the first in this order is recorded (R565 gives none): a model or a size without
the command, a misaligned address, a combining write that takes no such size, an address that holds nothing. -/
def State.accessMemory (s : State) : Res Unit :=
  let c := s.dm.command
  if s.cfg.model = .v3a then .ok () (s.setCmderr 2)
  else match commandWidth c with
    | none => .ok () (s.setCmderr 2)
    | some w =>
      if aligned w s.dm.data1 = false then .ok () (s.setCmderr 3)
      else if c.getLsbD 16 then s.memoryWrite w
      else s.finishMemory (s.readTarget w s.dm.data1) fun v s' =>
        let (x, s2) := s'.narrow w v
        ((s2.setDm { s2.dm with data0 := x }).nextAddress w).postexec

/-- The command in `command` runs (R565 to R568), unless the core is not halted. DESIGN CHOICE, log entry 27: nor does it
run while cmderr is not 0, be it written or automatic; and where several errors apply, that of a core that is not halted
(4) comes before that of a command that is not supported (2), for R565 gives no order. -/
def State.runCommand (s : State) : Res Unit :=
  if s.dm.cmderr ≠ 0 then .ok () s
  else if s.dbg ≠ .halted then .ok () (s.setCmderr 4)
  else match s.dm.command.extractLsb' 24 8 with
    | 0#8 => .ok () s.accessRegister
    | 2#8 => s.accessMemory
    | _ => .ok () (s.setCmderr 2)

/-! ## The host's accesses (R560) -/

/-- Whether an access to a register runs the command again (R569). -/
def State.autoexec (s : State) : DmReg → Bool
  | .data k => s.dm.autoexecData.getLsbD k
  | .progbuf k => s.dm.autoexecProgbuf.getLsbD k
  | _ => false

/-- A register whose access while a command executes is an error (R565). -/
def busyError (r : DmReg) (isWrite : Bool) : Bool :=
  match r with
  | .data _ => true
  | .progbuf _ => true
  | .command => isWrite
  | .abstractcs => isWrite
  | .abstractauto => isWrite
  | _ => false

/-- After a read: the error of a busy module, or the automatic command. DESIGN CHOICE, log entry 27: a read of data or
progbuf that records cmderr 1 gives the register's value all the same and runs no automatic command. -/
def State.afterAccess (s : State) (r : DmReg) (isWrite : Bool) : Res Unit :=
  if s.dmBusy && busyError r isWrite then .ok () (s.setCmderr 1)
  else if s.autoexec r then s.runCommand
  else .ok () s

/-- A register's new value (R562 to R569). DESIGN CHOICE, log entry 27: while cmderr is not 0 a write of command is
dropped. DESIGN CHOICE, log entry 9: a write of data0 or data1 is an access to a register of the debug module and no
store to the word that the core sees there (R566), so that a reservation of that word stays. -/
def State.dmWrite (s : State) (r : DmReg) (v : Word) : Res Unit :=
  match r with
  | .data k =>
    .ok () (s.setDm (if k = 0 then { s.dm with data0 := v } else { s.dm with data1 := v }))
  | .dmcontrol => .ok () (s.writeDmcontrol v)
  | .dmstatus => .ok () s
  | .hartinfo => .ok () s
  | .abstractcs => .ok () (s.setDm { s.dm with cmderr := s.dm.cmderr &&& ~~~v.extractLsb' 8 3 })
  | .command => if s.dm.cmderr ≠ 0 then .ok () s else (s.setDm { s.dm with command := v }).runCommand
  | .abstractauto =>
    .ok () (s.setDm { s.dm with autoexecProgbuf := v.extractLsb' 16 8, autoexecData := v.extractLsb' 0 2 })
  | .progbuf k => .ok () (s.setDm { s.dm with progbuf := s.dm.progbuf.setIfInBounds k v })
  | .haltsum0 => .ok () s

/-- A write by the host (R562, R565). DESIGN CHOICE, log entry 27: while the module is in reset only dmcontrol takes it
(R562 says of dmactive = 0 that it resets the module); a write that records cmderr 1, for which R565 gives only the code,
is dropped and runs no automatic command. -/
def State.hostWrite (s : State) (r : DmReg) (v : Word) : Res Unit :=
  if !s.dm.dmactive && decide (r ≠ .dmcontrol) then .ok () s
  else if s.dmBusy && busyError r true then .ok () (s.setCmderr 1)
  else (s.dmWrite r v).bind fun _ s' => if s'.autoexec r then s'.runCommand else .ok () s'

/-- A read by the host; an address without a register gives a free value (log entry 27). -/
def State.hostRead (s : State) (a : BitVec 7) : Res Unit :=
  match dmReg a with
  | some r => (s.setDm { s.dm with readout := s.dmValue r }).afterAccess r false
  | none => .ok () (s.drawn.setDm { s.dm with readout := s.free })

/-- One access of the debug host; without a debugger there is none (D25). -/
def State.hostAccess (s : State) (h : HostAccess) : Res Unit :=
  if s.cfg.debugger = false then .ok () s
  else match h with
    | .read a => s.hostRead a
    | .write a v =>
      match dmReg a with
      | some r => s.hostWrite r v
      | none => .ok () s

end Sys2Proof.Machine
end

