-- ==== Sys2Proof/Syntax.lean ====
section
/-! DEFINITION. The instructions: one constructor for each of the 127 rows of spec/opcode_table.json, with the
operands the encoding carries. Offsets and scaled immediates are held as the value they stand for (a branch offset
is a 13-bit signed number, its low bit included), and `Instr.wf` says which values an encoding admits. Fields that a
rule tells the hardware to ignore (R192: fm, rd and rs1 of `fence`, the fields of `fence.i`, the immediate of `c.nop`)
are operands too, so that no bit of a word is lost. -/

namespace Sys2Proof

/-- An instruction of the QingKe V3 (spec/opcode_table.json; the rule of each row is named beside it). -/
inductive Instr where
  /-- `lui rd, imm20` (R211) -/
  | lui (rd : Reg) (imm : BitVec 20)
  /-- `auipc rd, imm20` (R212) -/
  | auipc (rd : Reg) (imm : BitVec 20)
  /-- `jal rd, off` (R241) -/
  | jal (rd : Reg) (off : BitVec 21)
  /-- `jalr rd, imm(rs1)` (R242) -/
  | jalr (rd rs1 : Reg) (imm : BitVec 12)
  /-- `beq rs1, rs2, off` (R243) -/
  | beq (rs1 rs2 : Reg) (off : BitVec 13)
  /-- `bne rs1, rs2, off` (R244) -/
  | bne (rs1 rs2 : Reg) (off : BitVec 13)
  /-- `blt rs1, rs2, off` (R245) -/
  | blt (rs1 rs2 : Reg) (off : BitVec 13)
  /-- `bge rs1, rs2, off` (R246) -/
  | bge (rs1 rs2 : Reg) (off : BitVec 13)
  /-- `bltu rs1, rs2, off` (R247) -/
  | bltu (rs1 rs2 : Reg) (off : BitVec 13)
  /-- `bgeu rs1, rs2, off` (R248) -/
  | bgeu (rs1 rs2 : Reg) (off : BitVec 13)
  /-- `lb rd, imm(rs1)` (R250) -/
  | lb (rd rs1 : Reg) (imm : BitVec 12)
  /-- `lh rd, imm(rs1)` (R251) -/
  | lh (rd rs1 : Reg) (imm : BitVec 12)
  /-- `lw rd, imm(rs1)` (R252) -/
  | lw (rd rs1 : Reg) (imm : BitVec 12)
  /-- `lbu rd, imm(rs1)` (R253) -/
  | lbu (rd rs1 : Reg) (imm : BitVec 12)
  /-- `lhu rd, imm(rs1)` (R254) -/
  | lhu (rd rs1 : Reg) (imm : BitVec 12)
  /-- `sb rs2, imm(rs1)` (R256) -/
  | sb (rs2 rs1 : Reg) (imm : BitVec 12)
  /-- `sh rs2, imm(rs1)` (R257) -/
  | sh (rs2 rs1 : Reg) (imm : BitVec 12)
  /-- `sw rs2, imm(rs1)` (R258) -/
  | sw (rs2 rs1 : Reg) (imm : BitVec 12)
  /-- `addi rd, rs1, imm` (R213) -/
  | addi (rd rs1 : Reg) (imm : BitVec 12)
  /-- `slti rd, rs1, imm` (R214) -/
  | slti (rd rs1 : Reg) (imm : BitVec 12)
  /-- `sltiu rd, rs1, imm` (R215) -/
  | sltiu (rd rs1 : Reg) (imm : BitVec 12)
  /-- `xori rd, rs1, imm` (R216) -/
  | xori (rd rs1 : Reg) (imm : BitVec 12)
  /-- `ori rd, rs1, imm` (R217) -/
  | ori (rd rs1 : Reg) (imm : BitVec 12)
  /-- `andi rd, rs1, imm` (R218) -/
  | andi (rd rs1 : Reg) (imm : BitVec 12)
  /-- `slli rd, rs1, shamt` (R219) -/
  | slli (rd rs1 : Reg) (shamt : BitVec 5)
  /-- `srli rd, rs1, shamt` (R220) -/
  | srli (rd rs1 : Reg) (shamt : BitVec 5)
  /-- `srai rd, rs1, shamt` (R221) -/
  | srai (rd rs1 : Reg) (shamt : BitVec 5)
  /-- `add rd, rs1, rs2` (R222) -/
  | add (rd rs1 rs2 : Reg)
  /-- `sub rd, rs1, rs2` (R223) -/
  | sub (rd rs1 rs2 : Reg)
  /-- `sll rd, rs1, rs2` (R224) -/
  | sll (rd rs1 rs2 : Reg)
  /-- `slt rd, rs1, rs2` (R225) -/
  | slt (rd rs1 rs2 : Reg)
  /-- `sltu rd, rs1, rs2` (R226) -/
  | sltu (rd rs1 rs2 : Reg)
  /-- `xor rd, rs1, rs2` (R227) -/
  | xor (rd rs1 rs2 : Reg)
  /-- `srl rd, rs1, rs2` (R228) -/
  | srl (rd rs1 rs2 : Reg)
  /-- `sra rd, rs1, rs2` (R229) -/
  | sra (rd rs1 rs2 : Reg)
  /-- `or rd, rs1, rs2` (R230) -/
  | or (rd rs1 rs2 : Reg)
  /-- `and rd, rs1, rs2` (R231) -/
  | and (rd rs1 rs2 : Reg)
  /-- `fence pred, succ` (R262); fm, rs1 and rd are ignored -/
  | fence (fm pred succ : BitVec 4) (rs1 rd : Reg)
  /-- `fence.i` (R263); its fields are ignored -/
  | fenceI (imm : BitVec 12) (rs1 rd : Reg)
  /-- `ecall` (R271) -/
  | ecall
  /-- `ebreak` (R273) -/
  | ebreak
  /-- `mret` (R272) -/
  | mret
  /-- `wfi` (R274) -/
  | wfi
  /-- `csrrw rd, csr, rs1` (R278) -/
  | csrrw (rd : Reg) (csr : BitVec 12) (rs1 : Reg)
  /-- `csrrs rd, csr, rs1` (R279) -/
  | csrrs (rd : Reg) (csr : BitVec 12) (rs1 : Reg)
  /-- `csrrc rd, csr, rs1` (R280) -/
  | csrrc (rd : Reg) (csr : BitVec 12) (rs1 : Reg)
  /-- `csrrwi rd, csr, uimm` (R281) -/
  | csrrwi (rd : Reg) (csr : BitVec 12) (uimm : BitVec 5)
  /-- `csrrsi rd, csr, uimm` (R282) -/
  | csrrsi (rd : Reg) (csr : BitVec 12) (uimm : BitVec 5)
  /-- `csrrci rd, csr, uimm` (R283) -/
  | csrrci (rd : Reg) (csr : BitVec 12) (uimm : BitVec 5)
  /-- `mul rd, rs1, rs2` (R291) -/
  | mul (rd rs1 rs2 : Reg)
  /-- `mulh rd, rs1, rs2` (R292) -/
  | mulh (rd rs1 rs2 : Reg)
  /-- `mulhsu rd, rs1, rs2` (R293) -/
  | mulhsu (rd rs1 rs2 : Reg)
  /-- `mulhu rd, rs1, rs2` (R294) -/
  | mulhu (rd rs1 rs2 : Reg)
  /-- `div rd, rs1, rs2` (R295) -/
  | div (rd rs1 rs2 : Reg)
  /-- `divu rd, rs1, rs2` (R296) -/
  | divu (rd rs1 rs2 : Reg)
  /-- `rem rd, rs1, rs2` (R297) -/
  | rem (rd rs1 rs2 : Reg)
  /-- `remu rd, rs1, rs2` (R298) -/
  | remu (rd rs1 rs2 : Reg)
  /-- `lr.w rd, (rs1)` (R303) -/
  | lrW (aq rl : Bool) (rd rs1 : Reg)
  /-- `sc.w rd, rs2, (rs1)` (R304) -/
  | scW (aq rl : Bool) (rd rs2 rs1 : Reg)
  /-- `amoswap.w rd, rs2, (rs1)` (R305) -/
  | amoswapW (aq rl : Bool) (rd rs2 rs1 : Reg)
  /-- `amoadd.w rd, rs2, (rs1)` (R306) -/
  | amoaddW (aq rl : Bool) (rd rs2 rs1 : Reg)
  /-- `amoxor.w rd, rs2, (rs1)` (R307) -/
  | amoxorW (aq rl : Bool) (rd rs2 rs1 : Reg)
  /-- `amoand.w rd, rs2, (rs1)` (R308) -/
  | amoandW (aq rl : Bool) (rd rs2 rs1 : Reg)
  /-- `amoor.w rd, rs2, (rs1)` (R309) -/
  | amoorW (aq rl : Bool) (rd rs2 rs1 : Reg)
  /-- `amomin.w rd, rs2, (rs1)` (R310) -/
  | amominW (aq rl : Bool) (rd rs2 rs1 : Reg)
  /-- `amomax.w rd, rs2, (rs1)` (R311) -/
  | amomaxW (aq rl : Bool) (rd rs2 rs1 : Reg)
  /-- `amominu.w rd, rs2, (rs1)` (R312) -/
  | amominuW (aq rl : Bool) (rd rs2 rs1 : Reg)
  /-- `amomaxu.w rd, rs2, (rs1)` (R313) -/
  | amomaxuW (aq rl : Bool) (rd rs2 rs1 : Reg)
  /-- `sh1add rd, rs1, rs2` (R361) -/
  | sh1add (rd rs1 rs2 : Reg)
  /-- `sh2add rd, rs1, rs2` (R362) -/
  | sh2add (rd rs1 rs2 : Reg)
  /-- `sh3add rd, rs1, rs2` (R363) -/
  | sh3add (rd rs1 rs2 : Reg)
  /-- `andn rd, rs1, rs2` (R364) -/
  | andn (rd rs1 rs2 : Reg)
  /-- `orn rd, rs1, rs2` (R365) -/
  | orn (rd rs1 rs2 : Reg)
  /-- `xnor rd, rs1, rs2` (R366) -/
  | xnor (rd rs1 rs2 : Reg)
  /-- `clz rd, rs1` (R367) -/
  | clz (rd rs1 : Reg)
  /-- `ctz rd, rs1` (R368) -/
  | ctz (rd rs1 : Reg)
  /-- `cpop rd, rs1` (R369) -/
  | cpop (rd rs1 : Reg)
  /-- `max rd, rs1, rs2` (R370) -/
  | max (rd rs1 rs2 : Reg)
  /-- `maxu rd, rs1, rs2` (R371) -/
  | maxu (rd rs1 rs2 : Reg)
  /-- `min rd, rs1, rs2` (R372) -/
  | min (rd rs1 rs2 : Reg)
  /-- `minu rd, rs1, rs2` (R373) -/
  | minu (rd rs1 rs2 : Reg)
  /-- `sext.b rd, rs1` (R374) -/
  | sextB (rd rs1 : Reg)
  /-- `sext.h rd, rs1` (R375) -/
  | sextH (rd rs1 : Reg)
  /-- `zext.h rd, rs1` (R376) -/
  | zextH (rd rs1 : Reg)
  /-- `rol rd, rs1, rs2` (R377) -/
  | rol (rd rs1 rs2 : Reg)
  /-- `ror rd, rs1, rs2` (R378) -/
  | ror (rd rs1 rs2 : Reg)
  /-- `rori rd, rs1, shamt` (R379) -/
  | rori (rd rs1 : Reg) (shamt : BitVec 5)
  /-- `orc.b rd, rs1` (R380) -/
  | orcB (rd rs1 : Reg)
  /-- `rev8 rd, rs1` (R381) -/
  | rev8 (rd rs1 : Reg)
  /-- `clmul rd, rs1, rs2` (R382) -/
  | clmul (rd rs1 rs2 : Reg)
  /-- `clmulh rd, rs1, rs2` (R383) -/
  | clmulh (rd rs1 rs2 : Reg)
  /-- `clmulr rd, rs1, rs2` (R384) -/
  | clmulr (rd rs1 rs2 : Reg)
  /-- `bclr rd, rs1, rs2` (R385) -/
  | bclr (rd rs1 rs2 : Reg)
  /-- `bclri rd, rs1, shamt` (R386) -/
  | bclri (rd rs1 : Reg) (shamt : BitVec 5)
  /-- `bext rd, rs1, rs2` (R387) -/
  | bext (rd rs1 rs2 : Reg)
  /-- `bexti rd, rs1, shamt` (R388) -/
  | bexti (rd rs1 : Reg) (shamt : BitVec 5)
  /-- `binv rd, rs1, rs2` (R389) -/
  | binv (rd rs1 rs2 : Reg)
  /-- `binvi rd, rs1, shamt` (R390) -/
  | binvi (rd rs1 : Reg) (shamt : BitVec 5)
  /-- `bset rd, rs1, rs2` (R391) -/
  | bset (rd rs1 rs2 : Reg)
  /-- `bseti rd, rs1, shamt` (R392) -/
  | bseti (rd rs1 : Reg) (shamt : BitVec 5)
  /-- `c.addi4spn rd', uimm` (R321) -/
  | cAddi4spn (rd' : CReg) (uimm : BitVec 10)
  /-- `c.lw rd', uimm(rs1')` (R322) -/
  | cLw (rd' rs1' : CReg) (uimm : BitVec 7)
  /-- `c.sw rs2', uimm(rs1')` (R323) -/
  | cSw (rs2' rs1' : CReg) (uimm : BitVec 7)
  /-- `c.nop` (R324); a non-zero immediate is a hint -/
  | cNop (imm : BitVec 6)
  /-- `c.addi rd, imm` (R325) -/
  | cAddi (rd : Reg) (imm : BitVec 6)
  /-- `c.jal off` (R326) -/
  | cJal (off : BitVec 12)
  /-- `c.li rd, imm` (R327) -/
  | cLi (rd : Reg) (imm : BitVec 6)
  /-- `c.addi16sp imm` (R328) -/
  | cAddi16sp (imm : BitVec 10)
  /-- `c.lui rd, imm` (R329): imm stands for bits 17 to 12 -/
  | cLui (rd : Reg) (imm : BitVec 6)
  /-- `c.srli rd', shamt` (R330) -/
  | cSrli (rd' : CReg) (shamt : BitVec 5)
  /-- `c.srai rd', shamt` (R331) -/
  | cSrai (rd' : CReg) (shamt : BitVec 5)
  /-- `c.andi rd', imm` (R332) -/
  | cAndi (rd' : CReg) (imm : BitVec 6)
  /-- `c.sub rd', rs2'` (R333) -/
  | cSub (rd' rs2' : CReg)
  /-- `c.xor rd', rs2'` (R334) -/
  | cXor (rd' rs2' : CReg)
  /-- `c.or rd', rs2'` (R335) -/
  | cOr (rd' rs2' : CReg)
  /-- `c.and rd', rs2'` (R336) -/
  | cAnd (rd' rs2' : CReg)
  /-- `c.j off` (R337) -/
  | cJ (off : BitVec 12)
  /-- `c.beqz rs1', off` (R338) -/
  | cBeqz (rs1' : CReg) (off : BitVec 9)
  /-- `c.bnez rs1', off` (R339) -/
  | cBnez (rs1' : CReg) (off : BitVec 9)
  /-- `c.slli rd, shamt` (R340) -/
  | cSlli (rd : Reg) (shamt : BitVec 5)
  /-- `c.lwsp rd, uimm(sp)` (R341) -/
  | cLwsp (rd : Reg) (uimm : BitVec 8)
  /-- `c.jr rs1` (R342) -/
  | cJr (rs1 : Reg)
  /-- `c.mv rd, rs2` (R343) -/
  | cMv (rd rs2 : Reg)
  /-- `c.ebreak` (R344) -/
  | cEbreak
  /-- `c.jalr rs1` (R345) -/
  | cJalr (rs1 : Reg)
  /-- `c.add rd, rs2` (R346) -/
  | cAdd (rd rs2 : Reg)
  /-- `c.swsp rs2, uimm(sp)` (R347) -/
  | cSwsp (rs2 : Reg) (uimm : BitVec 8)
deriving DecidableEq, Repr

end Sys2Proof
end

