-- ==== Sys2Proof/WellFormed.lean ====
section
/-! DEFINITION. Which operand values an encoding admits: even jump and branch offsets (R173), scaled compressed
immediates (R321 to R347), and the operand values that a reserved encoding or another row of the table takes
(R193, R348 and the `constraints` of spec/opcode_table.json). -/

namespace Sys2Proof

/-- A jump or branch offset is a multiple of 2 (R173, R326, R338). -/
def evenOffset {n : Nat} (off : BitVec n) : Bool := !off.getLsbD 0

/-- A word-scaled immediate is a multiple of 4 (R321, R322, R341, R347). -/
def multipleOf4 {n : Nat} (imm : BitVec n) : Bool := !imm.getLsbD 0 && !imm.getLsbD 1

/-- The immediate of `c.addi16sp` is a multiple of 16 (R328). -/
def multipleOf16 {n : Nat} (imm : BitVec n) : Bool :=
  !imm.getLsbD 0 && !imm.getLsbD 1 && !imm.getLsbD 2 && !imm.getLsbD 3

/-- The instruction has an encoding: every operand is a value its fields can hold and its rule allows. -/
def Instr.wf : Instr → Bool
  | .jal _ off => evenOffset off
  | .beq _ _ off | .bne _ _ off | .blt _ _ off | .bge _ _ off | .bltu _ _ off | .bgeu _ _ off => evenOffset off
  -- R321, R193: a zero immediate is reserved
  | .cAddi4spn _ uimm => multipleOf4 uimm && uimm != 0
  | .cLw _ _ uimm | .cSw _ _ uimm => multipleOf4 uimm
  -- R325: rd = 0 is c.nop
  | .cAddi rd _ => rd != 0
  | .cJal off | .cJ off => evenOffset off
  | .cAddi16sp imm => multipleOf16 imm && imm != 0
  -- R329: rd = 2 is c.addi16sp, a zero immediate is reserved
  | .cLui rd imm => rd != 2 && imm != 0
  | .cBeqz _ off | .cBnez _ off => evenOffset off
  | .cLwsp rd uimm => rd != 0 && multipleOf4 uimm
  | .cSwsp _ uimm => multipleOf4 uimm
  | .cJr rs1 => rs1 != 0
  -- R348: a zero rs2 is c.jr, c.jalr or c.ebreak
  | .cMv _ rs2 => rs2 != 0
  | .cJalr rs1 => rs1 != 0
  | .cAdd _ rs2 => rs2 != 0
  -- every operand value has an encoding
  | .lui _ _ | .auipc _ _ | .jalr _ _ _ | .lb _ _ _ | .lh _ _ _ | .lw _ _ _ | .lbu _ _ _ | .lhu _ _ _ | .sb _ _ _ | .sh _ _ _
  | .sw _ _ _ | .addi _ _ _ | .slti _ _ _ | .sltiu _ _ _ | .xori _ _ _ | .ori _ _ _ | .andi _ _ _ | .slli _ _ _
  | .srli _ _ _ | .srai _ _ _ | .add _ _ _ | .sub _ _ _ | .sll _ _ _ | .slt _ _ _ | .sltu _ _ _ | .xor _ _ _
  | .srl _ _ _ | .sra _ _ _ | .or _ _ _ | .and _ _ _ | .fence _ _ _ _ _ | .fenceI _ _ _ | .ecall | .ebreak
  | .mret | .wfi | .csrrw _ _ _ | .csrrs _ _ _ | .csrrc _ _ _ | .csrrwi _ _ _ | .csrrsi _ _ _ | .csrrci _ _ _
  | .mul _ _ _ | .mulh _ _ _ | .mulhsu _ _ _ | .mulhu _ _ _ | .div _ _ _ | .divu _ _ _ | .rem _ _ _
  | .remu _ _ _ | .lrW _ _ _ _ | .scW _ _ _ _ _ | .amoswapW _ _ _ _ _ | .amoaddW _ _ _ _ _ | .amoxorW _ _ _ _ _
  | .amoandW _ _ _ _ _ | .amoorW _ _ _ _ _ | .amominW _ _ _ _ _ | .amomaxW _ _ _ _ _ | .amominuW _ _ _ _ _
  | .amomaxuW _ _ _ _ _ | .sh1add _ _ _ | .sh2add _ _ _ | .sh3add _ _ _ | .andn _ _ _ | .orn _ _ _ | .xnor _ _ _
  | .clz _ _ | .ctz _ _ | .cpop _ _ | .max _ _ _ | .maxu _ _ _ | .min _ _ _ | .minu _ _ _ | .sextB _ _
  | .sextH _ _ | .zextH _ _ | .rol _ _ _ | .ror _ _ _ | .rori _ _ _ | .orcB _ _ | .rev8 _ _ | .clmul _ _ _
  | .clmulh _ _ _ | .clmulr _ _ _ | .bclr _ _ _ | .bclri _ _ _ | .bext _ _ _ | .bexti _ _ _ | .binv _ _ _
  | .binvi _ _ _ | .bset _ _ _ | .bseti _ _ _ | .cNop _ | .cLi _ _ | .cSrli _ _ | .cSrai _ _ | .cAndi _ _
  | .cSub _ _ | .cXor _ _ | .cOr _ _ | .cAnd _ _ | .cSlli _ _ | .cEbreak => true

end Sys2Proof
end

