-- ==== Sys2Proof/Decode.lean ====
section
/-! DEFINITION. The decoder, total on any bytes, and after it the encoder, both written from spec/30_encoding.md,
the encoding paragraphs of spec/40_rv32i_compute.md to spec/46_b.md and spec/opcode_table.json. Decoding does not
depend on the model: no two rows share a word (R181, R348), and a word that only another model has decodes to that
model's instruction, whose meaning then takes the illegal-instruction exception (R190 (d), log entry 39). -/

namespace Sys2Proof

/-- Why bytes are no instruction of the table. -/
inductive DecodeReject where
  /-- a reserved or unavailable 16-bit parcel: illegal on every model (R190 (a), (e), R193) -/
  | illegalHalf (p : Half)
  /-- a 32-bit word that matches no row: illegal on every model (R190 (a) to (c), R194) -/
  | illegalWord (w : Word)
  /-- a 16-bit parcel of the slots that may hold XW (R191, R402): illegal on V3A, outside the model on V3B and V3C -/
  | vendorHalf (p : Half)
  /-- a 32-bit word under custom-0 to custom-3 (R191, R403): illegal on V3A, outside the model on V3B and V3C -/
  | vendorWord (w : Word)
  /-- fewer bytes than the instruction has -/
  | truncated
deriving DecidableEq, Repr

/-! ## Fields of a 32-bit word (R172 to R177) -/

def fOpcode (w : Word) : BitVec 7 := w.extractLsb' 0 7
def fRd (w : Word) : Reg := w.extractLsb' 7 5
def fFunct3 (w : Word) : BitVec 3 := w.extractLsb' 12 3
def fRs1 (w : Word) : Reg := w.extractLsb' 15 5
def fRs2 (w : Word) : Reg := w.extractLsb' 20 5
def fFunct7 (w : Word) : BitVec 7 := w.extractLsb' 25 7
def fFunct5 (w : Word) : BitVec 5 := w.extractLsb' 27 5
def fAq (w : Word) : Bool := w.getLsbD 26
def fRl (w : Word) : Bool := w.getLsbD 25

/-- The immediate of the I format, and the CSR address (R173, R176). -/
def fImmI (w : Word) : BitVec 12 := w.extractLsb' 20 12

/-- The immediate of the S format (R173). -/
def fImmS (w : Word) : BitVec 12 := w.extractLsb' 25 7 ++ w.extractLsb' 7 5

/-- The offset of the B format (R173). -/
def fImmB (w : Word) : BitVec 13 :=
  w.extractLsb' 31 1 ++ w.extractLsb' 7 1 ++ w.extractLsb' 25 6 ++ w.extractLsb' 8 4 ++ 0#1

/-- Bits 31 to 12 of the immediate of the U format (R173). -/
def fImmU (w : Word) : BitVec 20 := w.extractLsb' 12 20

/-- The offset of the J format (R173). -/
def fImmJ (w : Word) : BitVec 21 :=
  w.extractLsb' 31 1 ++ w.extractLsb' 12 8 ++ w.extractLsb' 20 1 ++ w.extractLsb' 21 10 ++ 0#1

/-! ## Fields of a 16-bit parcel (R178 and the rules of spec/45_c.md) -/

def pOp (p : Half) : BitVec 2 := p.extractLsb' 0 2
def pFunct3 (p : Half) : BitVec 3 := p.extractLsb' 13 3
def pRd (p : Half) : Reg := p.extractLsb' 7 5
def pRs2 (p : Half) : Reg := p.extractLsb' 2 5
def pHigh' (p : Half) : CReg := p.extractLsb' 7 3
def pLow' (p : Half) : CReg := p.extractLsb' 2 3
def pBit12 (p : Half) : BitVec 1 := p.extractLsb' 12 1

/-- imm[5] = inst[12], imm[4:0] = inst[6:2] (R325, R327, R329, R332). -/
def pImm6 (p : Half) : BitVec 6 := p.extractLsb' 12 1 ++ p.extractLsb' 2 5

/-- The immediate of `c.addi4spn` (R321). -/
def pImmAddi4spn (p : Half) : BitVec 10 :=
  p.extractLsb' 7 4 ++ p.extractLsb' 11 2 ++ p.extractLsb' 5 1 ++ p.extractLsb' 6 1 ++ 0#2

/-- The immediate of `c.lw` and `c.sw` (R322, R323). -/
def pImmLw (p : Half) : BitVec 7 := p.extractLsb' 5 1 ++ p.extractLsb' 10 3 ++ p.extractLsb' 6 1 ++ 0#2

/-- The offset of `c.jal` and `c.j` (R326, R337). -/
def pImmJ (p : Half) : BitVec 12 :=
  p.extractLsb' 12 1 ++ p.extractLsb' 8 1 ++ p.extractLsb' 9 2 ++ p.extractLsb' 6 1 ++ p.extractLsb' 7 1 ++
    p.extractLsb' 2 1 ++ p.extractLsb' 11 1 ++ p.extractLsb' 3 3 ++ 0#1

/-- The immediate of `c.addi16sp` (R328). -/
def pImmAddi16sp (p : Half) : BitVec 10 :=
  p.extractLsb' 12 1 ++ p.extractLsb' 3 2 ++ p.extractLsb' 5 1 ++ p.extractLsb' 2 1 ++ p.extractLsb' 6 1 ++ 0#4

/-- The offset of `c.beqz` and `c.bnez` (R338, R339). -/
def pImmB (p : Half) : BitVec 9 :=
  p.extractLsb' 12 1 ++ p.extractLsb' 5 2 ++ p.extractLsb' 2 1 ++ p.extractLsb' 10 2 ++ p.extractLsb' 3 2 ++ 0#1

/-- The immediate of `c.lwsp` (R341). -/
def pImmLwsp (p : Half) : BitVec 8 := p.extractLsb' 2 2 ++ p.extractLsb' 12 1 ++ p.extractLsb' 4 3 ++ 0#2

/-- The immediate of `c.swsp` (R347). -/
def pImmSwsp (p : Half) : BitVec 8 := p.extractLsb' 7 2 ++ p.extractLsb' 9 4 ++ 0#2

/-! ## Decoding a 32-bit word (R180, R181, R194) -/

/-- LOAD, by funct3 (R250 to R255). -/
def decodeLoad (w : Word) : Option Instr :=
  match fFunct3 w with
  | 0#3 => some (.lb (fRd w) (fRs1 w) (fImmI w))
  | 1#3 => some (.lh (fRd w) (fRs1 w) (fImmI w))
  | 2#3 => some (.lw (fRd w) (fRs1 w) (fImmI w))
  | 4#3 => some (.lbu (fRd w) (fRs1 w) (fImmI w))
  | 5#3 => some (.lhu (fRd w) (fRs1 w) (fImmI w))
  | _ => none

/-- STORE, by funct3 (R256 to R259). -/
def decodeStore (w : Word) : Option Instr :=
  match fFunct3 w with
  | 0#3 => some (.sb (fRs2 w) (fRs1 w) (fImmS w))
  | 1#3 => some (.sh (fRs2 w) (fRs1 w) (fImmS w))
  | 2#3 => some (.sw (fRs2 w) (fRs1 w) (fImmS w))
  | _ => none

/-- BRANCH, by funct3 (R243 to R249). -/
def decodeBranch (w : Word) : Option Instr :=
  match fFunct3 w with
  | 0#3 => some (.beq (fRs1 w) (fRs2 w) (fImmB w))
  | 1#3 => some (.bne (fRs1 w) (fRs2 w) (fImmB w))
  | 4#3 => some (.blt (fRs1 w) (fRs2 w) (fImmB w))
  | 5#3 => some (.bge (fRs1 w) (fRs2 w) (fImmB w))
  | 6#3 => some (.bltu (fRs1 w) (fRs2 w) (fImmB w))
  | 7#3 => some (.bgeu (fRs1 w) (fRs2 w) (fImmB w))
  | _ => none

/-- MISC-MEM: `fence` and `fence.i`, their other fields ignored (R177, R192, R262, R263). -/
def decodeMiscMem (w : Word) : Option Instr :=
  match fFunct3 w with
  | 0#3 => some (.fence (w.extractLsb' 28 4) (w.extractLsb' 24 4) (w.extractLsb' 20 4) (fRs1 w) (fRd w))
  | 1#3 => some (.fenceI (fImmI w) (fRs1 w) (fRd w))
  | _ => none

/-- OP-IMM with funct3 = 001: the shift and the unary B operations, by inst[31:25] and inst[24:20] (R174, R181). -/
def decodeOpImm001 (w : Word) : Option Instr :=
  match fFunct7 w with
  | 0b0000000#7 => some (.slli (fRd w) (fRs1 w) (fRs2 w))
  | 0b0110000#7 =>
    match fRs2 w with
    | 0#5 => some (.clz (fRd w) (fRs1 w))
    | 1#5 => some (.ctz (fRd w) (fRs1 w))
    | 2#5 => some (.cpop (fRd w) (fRs1 w))
    | 4#5 => some (.sextB (fRd w) (fRs1 w))
    | 5#5 => some (.sextH (fRd w) (fRs1 w))
    | _ => none
  | 0b0100100#7 => some (.bclri (fRd w) (fRs1 w) (fRs2 w))
  | 0b0110100#7 => some (.binvi (fRd w) (fRs1 w) (fRs2 w))
  | 0b0010100#7 => some (.bseti (fRd w) (fRs1 w) (fRs2 w))
  | _ => none

/-- OP-IMM with funct3 = 101 (R174, R181). -/
def decodeOpImm101 (w : Word) : Option Instr :=
  match fFunct7 w with
  | 0b0000000#7 => some (.srli (fRd w) (fRs1 w) (fRs2 w))
  | 0b0100000#7 => some (.srai (fRd w) (fRs1 w) (fRs2 w))
  | 0b0110000#7 => some (.rori (fRd w) (fRs1 w) (fRs2 w))
  | 0b0100100#7 => some (.bexti (fRd w) (fRs1 w) (fRs2 w))
  | 0b0010100#7 => match fRs2 w with | 0b00111#5 => some (.orcB (fRd w) (fRs1 w)) | _ => none
  | 0b0110100#7 => match fRs2 w with | 0b11000#5 => some (.rev8 (fRd w) (fRs1 w)) | _ => none
  | _ => none

/-- OP-IMM, by funct3 (R181). -/
def decodeOpImm (w : Word) : Option Instr :=
  match fFunct3 w with
  | 0#3 => some (.addi (fRd w) (fRs1 w) (fImmI w))
  | 1#3 => decodeOpImm001 w
  | 2#3 => some (.slti (fRd w) (fRs1 w) (fImmI w))
  | 3#3 => some (.sltiu (fRd w) (fRs1 w) (fImmI w))
  | 4#3 => some (.xori (fRd w) (fRs1 w) (fImmI w))
  | 5#3 => decodeOpImm101 w
  | 6#3 => some (.ori (fRd w) (fRs1 w) (fImmI w))
  | _ => some (.andi (fRd w) (fRs1 w) (fImmI w))

/-- OP with funct7 = 0000000 (R181). -/
def decodeOpBase (w : Word) : Instr :=
  match fFunct3 w with
  | 0#3 => .add (fRd w) (fRs1 w) (fRs2 w)
  | 1#3 => .sll (fRd w) (fRs1 w) (fRs2 w)
  | 2#3 => .slt (fRd w) (fRs1 w) (fRs2 w)
  | 3#3 => .sltu (fRd w) (fRs1 w) (fRs2 w)
  | 4#3 => .xor (fRd w) (fRs1 w) (fRs2 w)
  | 5#3 => .srl (fRd w) (fRs1 w) (fRs2 w)
  | 6#3 => .or (fRd w) (fRs1 w) (fRs2 w)
  | _ => .and (fRd w) (fRs1 w) (fRs2 w)

/-- OP with funct7 = 0100000: sub, sra and the inverted logic of Zbb (R181). -/
def decodeOpAlt (w : Word) : Option Instr :=
  match fFunct3 w with
  | 0#3 => some (.sub (fRd w) (fRs1 w) (fRs2 w))
  | 4#3 => some (.xnor (fRd w) (fRs1 w) (fRs2 w))
  | 5#3 => some (.sra (fRd w) (fRs1 w) (fRs2 w))
  | 6#3 => some (.orn (fRd w) (fRs1 w) (fRs2 w))
  | 7#3 => some (.andn (fRd w) (fRs1 w) (fRs2 w))
  | _ => none

/-- OP with funct7 = 0000001: the M extension (R290). -/
def decodeOpMul (w : Word) : Instr :=
  match fFunct3 w with
  | 0#3 => .mul (fRd w) (fRs1 w) (fRs2 w)
  | 1#3 => .mulh (fRd w) (fRs1 w) (fRs2 w)
  | 2#3 => .mulhsu (fRd w) (fRs1 w) (fRs2 w)
  | 3#3 => .mulhu (fRd w) (fRs1 w) (fRs2 w)
  | 4#3 => .div (fRd w) (fRs1 w) (fRs2 w)
  | 5#3 => .divu (fRd w) (fRs1 w) (fRs2 w)
  | 6#3 => .rem (fRd w) (fRs1 w) (fRs2 w)
  | _ => .remu (fRd w) (fRs1 w) (fRs2 w)

/-- OP with funct7 = 0000101: minima, maxima and carry-less products (R370 to R373, R382 to R384). -/
def decodeOpMinMax (w : Word) : Option Instr :=
  match fFunct3 w with
  | 1#3 => some (.clmul (fRd w) (fRs1 w) (fRs2 w))
  | 2#3 => some (.clmulr (fRd w) (fRs1 w) (fRs2 w))
  | 3#3 => some (.clmulh (fRd w) (fRs1 w) (fRs2 w))
  | 4#3 => some (.min (fRd w) (fRs1 w) (fRs2 w))
  | 5#3 => some (.minu (fRd w) (fRs1 w) (fRs2 w))
  | 6#3 => some (.max (fRd w) (fRs1 w) (fRs2 w))
  | 7#3 => some (.maxu (fRd w) (fRs1 w) (fRs2 w))
  | _ => none

/-- OP, by funct7 then funct3 (R181, spec/46_b.md). -/
def decodeOp (w : Word) : Option Instr :=
  match fFunct7 w with
  | 0b0000000#7 => some (decodeOpBase w)
  | 0b0100000#7 => decodeOpAlt w
  | 0b0000001#7 => some (decodeOpMul w)
  | 0b0000101#7 => decodeOpMinMax w
  | 0b0010000#7 =>
    match fFunct3 w with
    | 2#3 => some (.sh1add (fRd w) (fRs1 w) (fRs2 w))
    | 4#3 => some (.sh2add (fRd w) (fRs1 w) (fRs2 w))
    | 6#3 => some (.sh3add (fRd w) (fRs1 w) (fRs2 w))
    | _ => none
  | 0b0000100#7 =>
    match fFunct3 w, fRs2 w with
    | 4#3, 0#5 => some (.zextH (fRd w) (fRs1 w))
    | _, _ => none
  | 0b0110000#7 =>
    match fFunct3 w with
    | 1#3 => some (.rol (fRd w) (fRs1 w) (fRs2 w))
    | 5#3 => some (.ror (fRd w) (fRs1 w) (fRs2 w))
    | _ => none
  | 0b0100100#7 =>
    match fFunct3 w with
    | 1#3 => some (.bclr (fRd w) (fRs1 w) (fRs2 w))
    | 5#3 => some (.bext (fRd w) (fRs1 w) (fRs2 w))
    | _ => none
  | 0b0110100#7 => match fFunct3 w with | 1#3 => some (.binv (fRd w) (fRs1 w) (fRs2 w)) | _ => none
  | 0b0010100#7 => match fFunct3 w with | 1#3 => some (.bset (fRd w) (fRs1 w) (fRs2 w)) | _ => none
  | _ => none

/-- AMO, by funct5; funct3 = 010 only, and `lr.w` only with rs2 = 0 (R175, R194, R315). -/
def decodeAmo (w : Word) : Option Instr :=
  match fFunct3 w with
  | 2#3 =>
    match fFunct5 w with
    | 0b00010#5 => match fRs2 w with | 0#5 => some (.lrW (fAq w) (fRl w) (fRd w) (fRs1 w)) | _ => none
    | 0b00011#5 => some (.scW (fAq w) (fRl w) (fRd w) (fRs2 w) (fRs1 w))
    | 0b00001#5 => some (.amoswapW (fAq w) (fRl w) (fRd w) (fRs2 w) (fRs1 w))
    | 0b00000#5 => some (.amoaddW (fAq w) (fRl w) (fRd w) (fRs2 w) (fRs1 w))
    | 0b00100#5 => some (.amoxorW (fAq w) (fRl w) (fRd w) (fRs2 w) (fRs1 w))
    | 0b01100#5 => some (.amoandW (fAq w) (fRl w) (fRd w) (fRs2 w) (fRs1 w))
    | 0b01000#5 => some (.amoorW (fAq w) (fRl w) (fRd w) (fRs2 w) (fRs1 w))
    | 0b10000#5 => some (.amominW (fAq w) (fRl w) (fRd w) (fRs2 w) (fRs1 w))
    | 0b10100#5 => some (.amomaxW (fAq w) (fRl w) (fRd w) (fRs2 w) (fRs1 w))
    | 0b11000#5 => some (.amominuW (fAq w) (fRl w) (fRd w) (fRs2 w) (fRs1 w))
    | 0b11100#5 => some (.amomaxuW (fAq w) (fRl w) (fRd w) (fRs2 w) (fRs1 w))
    | _ => none
  | _ => none

/-- SYSTEM with funct3 = 000: the function code in inst[31:20], rd and rs1 zero (R176, R194, R284). -/
def decodeSystem0 (w : Word) : Option Instr :=
  match fRd w, fRs1 w with
  | 0#5, 0#5 =>
    match fImmI w with
    | 0x000#12 => some .ecall
    | 0x001#12 => some .ebreak
    | 0x302#12 => some .mret
    | 0x105#12 => some .wfi
    | _ => none
  | _, _ => none

/-- SYSTEM, by funct3 (R176, R275). -/
def decodeSystem (w : Word) : Option Instr :=
  match fFunct3 w with
  | 0#3 => decodeSystem0 w
  | 1#3 => some (.csrrw (fRd w) (fImmI w) (fRs1 w))
  | 2#3 => some (.csrrs (fRd w) (fImmI w) (fRs1 w))
  | 3#3 => some (.csrrc (fRd w) (fImmI w) (fRs1 w))
  | 5#3 => some (.csrrwi (fRd w) (fImmI w) (fRs1 w))
  | 6#3 => some (.csrrsi (fRd w) (fImmI w) (fRs1 w))
  | 7#3 => some (.csrrci (fRd w) (fImmI w) (fRs1 w))
  | _ => none

/-- The row of the table a 32-bit word matches, by major opcode (R180). -/
def decodeRow (w : Word) : Option Instr :=
  match fOpcode w with
  | 0x03#7 => decodeLoad w
  | 0x0F#7 => decodeMiscMem w
  | 0x13#7 => decodeOpImm w
  | 0x17#7 => some (.auipc (fRd w) (fImmU w))
  | 0x23#7 => decodeStore w
  | 0x2F#7 => decodeAmo w
  | 0x33#7 => decodeOp w
  | 0x37#7 => some (.lui (fRd w) (fImmU w))
  | 0x63#7 => decodeBranch w
  | 0x67#7 => match fFunct3 w with | 0#3 => some (.jalr (fRd w) (fRs1 w) (fImmI w)) | _ => none
  | 0x6F#7 => some (.jal (fRd w) (fImmJ w))
  | 0x73#7 => decodeSystem w
  | _ => none

/-- The major opcodes custom-0 to custom-3, which on V3B and V3C may hold vendor instructions (R180, R191). -/
def isCustomOpcode (op : BitVec 7) : Bool := op == 0x0B#7 || op == 0x2B#7 || op == 0x5B#7 || op == 0x7B#7

/-- The instruction of a 32-bit word, or why it is none. -/
def decodeWord (w : Word) : Except DecodeReject Instr :=
  match decodeRow w with
  | some i => .ok i
  | none => if isCustomOpcode (fOpcode w) then .error (.vendorWord w) else .error (.illegalWord w)

/-! ## Decoding a 16-bit parcel (R182, R193, R348) -/

/-- Quadrant 0. -/
def decodeQ0 (p : Half) : Except DecodeReject Instr :=
  match pFunct3 p with
  | 0#3 =>
    if pImmAddi4spn p = 0 then .error (.illegalHalf p) else .ok (.cAddi4spn (pLow' p) (pImmAddi4spn p))
  | 2#3 => .ok (.cLw (pLow' p) (pHigh' p) (pImmLw p))
  | 6#3 => .ok (.cSw (pLow' p) (pHigh' p) (pImmLw p))
  | _ => .error (.vendorHalf p)

/-- Quadrant 1, funct3 = 100, inst[11:10] = 11: the register forms; inst[12] = 1 is reserved (R333 to R336). -/
def decodeQ1Reg (p : Half) : Except DecodeReject Instr :=
  match pBit12 p, p.extractLsb' 5 2 with
  | 0#1, 0#2 => .ok (.cSub (pHigh' p) (pLow' p))
  | 0#1, 1#2 => .ok (.cXor (pHigh' p) (pLow' p))
  | 0#1, 2#2 => .ok (.cOr (pHigh' p) (pLow' p))
  | 0#1, 3#2 => .ok (.cAnd (pHigh' p) (pLow' p))
  | _, _ => .error (.illegalHalf p)

/-- Quadrant 1, funct3 = 100, by inst[11:10]; a shift amount with inst[12] = 1 is reserved (R330 to R332). -/
def decodeQ1Alu (p : Half) : Except DecodeReject Instr :=
  match p.extractLsb' 10 2 with
  | 0#2 => if pBit12 p = 1 then .error (.illegalHalf p) else .ok (.cSrli (pHigh' p) (pRs2 p))
  | 1#2 => if pBit12 p = 1 then .error (.illegalHalf p) else .ok (.cSrai (pHigh' p) (pRs2 p))
  | 2#2 => .ok (.cAndi (pHigh' p) (pImm6 p))
  | _ => decodeQ1Reg p

/-- Quadrant 1, funct3 = 011: rd = 2 is `c.addi16sp`, every other `c.lui`; a zero immediate is reserved (R328, R329). -/
def decodeQ1Lui (p : Half) : Except DecodeReject Instr :=
  if pRd p = 2 then
    if pImmAddi16sp p = 0 then .error (.illegalHalf p) else .ok (.cAddi16sp (pImmAddi16sp p))
  else if pImm6 p = 0 then .error (.illegalHalf p) else .ok (.cLui (pRd p) (pImm6 p))

/-- Quadrant 1. -/
def decodeQ1 (p : Half) : Except DecodeReject Instr :=
  match pFunct3 p with
  | 0#3 => if pRd p = 0 then .ok (.cNop (pImm6 p)) else .ok (.cAddi (pRd p) (pImm6 p))
  | 1#3 => .ok (.cJal (pImmJ p))
  | 2#3 => .ok (.cLi (pRd p) (pImm6 p))
  | 3#3 => decodeQ1Lui p
  | 4#3 => decodeQ1Alu p
  | 5#3 => .ok (.cJ (pImmJ p))
  | 6#3 => .ok (.cBeqz (pHigh' p) (pImmB p))
  | _ => .ok (.cBnez (pHigh' p) (pImmB p))

/-- Quadrant 2, funct3 = 100: by inst[12], then which of the two register fields are zero (R342 to R346, R348). -/
def decodeQ2Reg (p : Half) : Except DecodeReject Instr :=
  if pBit12 p = 0 then
    if pRs2 p = 0 then
      if pRd p = 0 then .error (.illegalHalf p) else .ok (.cJr (pRd p))
    else .ok (.cMv (pRd p) (pRs2 p))
  else if pRs2 p = 0 then
    if pRd p = 0 then .ok .cEbreak else .ok (.cJalr (pRd p))
  else .ok (.cAdd (pRd p) (pRs2 p))

/-- Quadrant 2. -/
def decodeQ2 (p : Half) : Except DecodeReject Instr :=
  match pFunct3 p with
  | 0#3 => if pBit12 p = 1 then .error (.illegalHalf p) else .ok (.cSlli (pRd p) (pRs2 p))
  | 2#3 => if pRd p = 0 then .error (.illegalHalf p) else .ok (.cLwsp (pRd p) (pImmLwsp p))
  | 4#3 => decodeQ2Reg p
  | 6#3 => .ok (.cSwsp (pRs2 p) (pImmSwsp p))
  | _ => .error (.vendorHalf p)

/-- The instruction of a 16-bit parcel, or why it is none; a parcel that opens a longer instruction is truncated. -/
def decodeHalf (p : Half) : Except DecodeReject Instr :=
  match pOp p with
  | 0#2 => decodeQ0 p
  | 1#2 => decodeQ1 p
  | 2#2 => decodeQ2 p
  | _ => .error .truncated

/-! ## Decoding bytes (R104, R170, R171) -/

/-- Whether the first byte opens a 32-bit instruction (R170). -/
def isLong (b0 : Byte) : Bool := b0.extractLsb' 0 2 == 3#2

/-- The instruction the bytes open with, lowest address first, and its length in bytes. -/
def decode : List Byte → Except DecodeReject (Instr × Nat)
  | b0 :: b1 :: rest =>
    if isLong b0 then
      match rest with
      | b2 :: b3 :: _ => (decodeWord (b3 ++ b2 ++ b1 ++ b0)).map fun i => (i, 4)
      | _ => .error .truncated
    else (decodeHalf (b1 ++ b0)).map fun i => (i, 2)
  | _ => .error .truncated

/-- The bytes of an instruction whose bits are `w`, as spec/opcode_table.json numbers them: lowest address first,
every bit above the given ones 0 (R103, R104). -/
def tableBytes (w : Nat) : List Byte :=
  [BitVec.ofNat 8 w, BitVec.ofNat 8 (w >>> 8), BitVec.ofNat 8 (w >>> 16), BitVec.ofNat 8 (w >>> 24)]

/-- The instruction the decoder reads from the table's bits; only the low `nbits` of `w` count. -/
def decodeTableWord (nbits w : Nat) : Option Instr :=
  match decode (tableBytes (w % 2 ^ nbits)) with
  | .ok (i, _) => some i
  | .error _ => none

/-! ## Encoding -/

/-- The words of an instruction: one 16-bit parcel or one 32-bit word (R170). -/
inductive Encoding where
  | half (p : Half)
  | word (w : Word)
deriving DecidableEq, Repr

/-- The bytes of an encoding, lowest address first (R104). -/
def Encoding.bytes : Encoding → List Byte
  | .half p => [p.extractLsb' 0 8, p.extractLsb' 8 8]
  | .word w => [w.extractLsb' 0 8, w.extractLsb' 8 8, w.extractLsb' 16 8, w.extractLsb' 24 8]

/-- The instruction bits as a 32-bit value, a parcel zero-extended: what `mtval` receives (R190, D33). -/
def Encoding.bits : Encoding → Word
  | .half p => p.setWidth 32
  | .word w => w

/-- R format (R172). -/
def encR (f7 : BitVec 7) (rs2 rs1 : Reg) (f3 : BitVec 3) (rd : Reg) (op : BitVec 7) : Encoding :=
  .word (f7 ++ rs2 ++ rs1 ++ f3 ++ rd ++ op)

/-- I format (R172). -/
def encI (imm : BitVec 12) (rs1 : Reg) (f3 : BitVec 3) (rd : Reg) (op : BitVec 7) : Encoding :=
  .word (imm ++ rs1 ++ f3 ++ rd ++ op)

/-- S format (R172). -/
def encS (imm : BitVec 12) (rs2 rs1 : Reg) (f3 : BitVec 3) : Encoding :=
  .word (imm.extractLsb' 5 7 ++ rs2 ++ rs1 ++ f3 ++ imm.extractLsb' 0 5 ++ 0x23#7)

/-- B format (R172). -/
def encB (off : BitVec 13) (rs2 rs1 : Reg) (f3 : BitVec 3) : Encoding :=
  .word (off.extractLsb' 12 1 ++ off.extractLsb' 5 6 ++ rs2 ++ rs1 ++ f3 ++ off.extractLsb' 1 4 ++
    off.extractLsb' 11 1 ++ 0x63#7)

/-- U format (R172). -/
def encU (imm : BitVec 20) (rd : Reg) (op : BitVec 7) : Encoding := .word (imm ++ rd ++ op)

/-- J format (R172). -/
def encJ (off : BitVec 21) (rd : Reg) : Encoding :=
  .word (off.extractLsb' 20 1 ++ off.extractLsb' 1 10 ++ off.extractLsb' 11 1 ++ off.extractLsb' 12 8 ++ rd ++ 0x6F#7)

/-- The atomic format (R175). -/
def encA (f5 : BitVec 5) (aq rl : Bool) (rs2 rs1 rd : Reg) : Encoding :=
  .word (f5 ++ BitVec.ofBool aq ++ BitVec.ofBool rl ++ rs2 ++ rs1 ++ 2#3 ++ rd ++ 0x2F#7)

/-- CI format: inst[12] and inst[6:2] hold the immediate (R178). -/
def encCI (f3 : BitVec 3) (hi : BitVec 1) (rd : Reg) (lo : BitVec 5) (op : BitVec 2) : Encoding :=
  .half (f3 ++ hi ++ rd ++ lo ++ op)

/-- CI format with a 6-bit immediate in the order of R325. -/
def encCI6 (f3 : BitVec 3) (imm : BitVec 6) (rd : Reg) : Encoding :=
  encCI f3 (imm.extractLsb' 5 1) rd (imm.extractLsb' 0 5) 1#2

/-- CL and CS formats of `c.lw` and `c.sw` (R322, R323). -/
def encCL (f3 : BitVec 3) (uimm : BitVec 7) (rs1' r' : CReg) : Encoding :=
  .half (f3 ++ uimm.extractLsb' 3 3 ++ rs1' ++ uimm.extractLsb' 2 1 ++ uimm.extractLsb' 6 1 ++ r' ++ 0#2)

/-- CB format of the shifts and `c.andi` (R330 to R332). -/
def encCBAlu (hi : BitVec 1) (f2 : BitVec 2) (rd' : CReg) (lo : BitVec 5) : Encoding :=
  .half (4#3 ++ hi ++ f2 ++ rd' ++ lo ++ 1#2)

/-- CA format (R333 to R336). -/
def encCA (f2 : BitVec 2) (rd' rs2' : CReg) : Encoding := .half (0b100011#6 ++ rd' ++ f2 ++ rs2' ++ 1#2)

/-- CJ format (R326, R337). -/
def encCJ (f3 : BitVec 3) (off : BitVec 12) : Encoding :=
  .half (f3 ++ off.extractLsb' 11 1 ++ off.extractLsb' 4 1 ++ off.extractLsb' 8 2 ++ off.extractLsb' 10 1 ++
    off.extractLsb' 6 1 ++ off.extractLsb' 7 1 ++ off.extractLsb' 1 3 ++ off.extractLsb' 5 1 ++ 1#2)

/-- CB format of the branches (R338, R339). -/
def encCB (f3 : BitVec 3) (off : BitVec 9) (rs1' : CReg) : Encoding :=
  .half (f3 ++ off.extractLsb' 8 1 ++ off.extractLsb' 3 2 ++ rs1' ++ off.extractLsb' 6 2 ++ off.extractLsb' 1 2 ++
    off.extractLsb' 5 1 ++ 1#2)

/-- CR format (R342 to R346). -/
def encCR (hi : BitVec 1) (rd rs2 : Reg) : Encoding := .half (4#3 ++ hi ++ rd ++ rs2 ++ 2#2)

/-- The words of an instruction, from the encoding paragraph of its rule. -/
def encode : Instr → Encoding
  | .lui rd imm => encU imm rd 0x37
  | .auipc rd imm => encU imm rd 0x17
  | .jal rd off => encJ off rd
  | .jalr rd rs1 imm => encI imm rs1 0 rd 0x67
  | .beq rs1 rs2 off => encB off rs2 rs1 0
  | .bne rs1 rs2 off => encB off rs2 rs1 1
  | .blt rs1 rs2 off => encB off rs2 rs1 4
  | .bge rs1 rs2 off => encB off rs2 rs1 5
  | .bltu rs1 rs2 off => encB off rs2 rs1 6
  | .bgeu rs1 rs2 off => encB off rs2 rs1 7
  | .lb rd rs1 imm => encI imm rs1 0 rd 0x03
  | .lh rd rs1 imm => encI imm rs1 1 rd 0x03
  | .lw rd rs1 imm => encI imm rs1 2 rd 0x03
  | .lbu rd rs1 imm => encI imm rs1 4 rd 0x03
  | .lhu rd rs1 imm => encI imm rs1 5 rd 0x03
  | .sb rs2 rs1 imm => encS imm rs2 rs1 0
  | .sh rs2 rs1 imm => encS imm rs2 rs1 1
  | .sw rs2 rs1 imm => encS imm rs2 rs1 2
  | .addi rd rs1 imm => encI imm rs1 0 rd 0x13
  | .slti rd rs1 imm => encI imm rs1 2 rd 0x13
  | .sltiu rd rs1 imm => encI imm rs1 3 rd 0x13
  | .xori rd rs1 imm => encI imm rs1 4 rd 0x13
  | .ori rd rs1 imm => encI imm rs1 6 rd 0x13
  | .andi rd rs1 imm => encI imm rs1 7 rd 0x13
  | .slli rd rs1 sh => encR 0b0000000 sh rs1 1 rd 0x13
  | .srli rd rs1 sh => encR 0b0000000 sh rs1 5 rd 0x13
  | .srai rd rs1 sh => encR 0b0100000 sh rs1 5 rd 0x13
  | .add rd rs1 rs2 => encR 0b0000000 rs2 rs1 0 rd 0x33
  | .sub rd rs1 rs2 => encR 0b0100000 rs2 rs1 0 rd 0x33
  | .sll rd rs1 rs2 => encR 0b0000000 rs2 rs1 1 rd 0x33
  | .slt rd rs1 rs2 => encR 0b0000000 rs2 rs1 2 rd 0x33
  | .sltu rd rs1 rs2 => encR 0b0000000 rs2 rs1 3 rd 0x33
  | .xor rd rs1 rs2 => encR 0b0000000 rs2 rs1 4 rd 0x33
  | .srl rd rs1 rs2 => encR 0b0000000 rs2 rs1 5 rd 0x33
  | .sra rd rs1 rs2 => encR 0b0100000 rs2 rs1 5 rd 0x33
  | .or rd rs1 rs2 => encR 0b0000000 rs2 rs1 6 rd 0x33
  | .and rd rs1 rs2 => encR 0b0000000 rs2 rs1 7 rd 0x33
  | .fence fm pred succ rs1 rd => encI (fm ++ pred ++ succ) rs1 0 rd 0x0F
  | .fenceI imm rs1 rd => encI imm rs1 1 rd 0x0F
  | .ecall => encI 0x000 0 0 0 0x73
  | .ebreak => encI 0x001 0 0 0 0x73
  | .mret => encI 0x302 0 0 0 0x73
  | .wfi => encI 0x105 0 0 0 0x73
  | .csrrw rd csr rs1 => encI csr rs1 1 rd 0x73
  | .csrrs rd csr rs1 => encI csr rs1 2 rd 0x73
  | .csrrc rd csr rs1 => encI csr rs1 3 rd 0x73
  | .csrrwi rd csr uimm => encI csr uimm 5 rd 0x73
  | .csrrsi rd csr uimm => encI csr uimm 6 rd 0x73
  | .csrrci rd csr uimm => encI csr uimm 7 rd 0x73
  | .mul rd rs1 rs2 => encR 0b0000001 rs2 rs1 0 rd 0x33
  | .mulh rd rs1 rs2 => encR 0b0000001 rs2 rs1 1 rd 0x33
  | .mulhsu rd rs1 rs2 => encR 0b0000001 rs2 rs1 2 rd 0x33
  | .mulhu rd rs1 rs2 => encR 0b0000001 rs2 rs1 3 rd 0x33
  | .div rd rs1 rs2 => encR 0b0000001 rs2 rs1 4 rd 0x33
  | .divu rd rs1 rs2 => encR 0b0000001 rs2 rs1 5 rd 0x33
  | .rem rd rs1 rs2 => encR 0b0000001 rs2 rs1 6 rd 0x33
  | .remu rd rs1 rs2 => encR 0b0000001 rs2 rs1 7 rd 0x33
  | .lrW aq rl rd rs1 => encA 0b00010 aq rl 0 rs1 rd
  | .scW aq rl rd rs2 rs1 => encA 0b00011 aq rl rs2 rs1 rd
  | .amoswapW aq rl rd rs2 rs1 => encA 0b00001 aq rl rs2 rs1 rd
  | .amoaddW aq rl rd rs2 rs1 => encA 0b00000 aq rl rs2 rs1 rd
  | .amoxorW aq rl rd rs2 rs1 => encA 0b00100 aq rl rs2 rs1 rd
  | .amoandW aq rl rd rs2 rs1 => encA 0b01100 aq rl rs2 rs1 rd
  | .amoorW aq rl rd rs2 rs1 => encA 0b01000 aq rl rs2 rs1 rd
  | .amominW aq rl rd rs2 rs1 => encA 0b10000 aq rl rs2 rs1 rd
  | .amomaxW aq rl rd rs2 rs1 => encA 0b10100 aq rl rs2 rs1 rd
  | .amominuW aq rl rd rs2 rs1 => encA 0b11000 aq rl rs2 rs1 rd
  | .amomaxuW aq rl rd rs2 rs1 => encA 0b11100 aq rl rs2 rs1 rd
  | .sh1add rd rs1 rs2 => encR 0b0010000 rs2 rs1 2 rd 0x33
  | .sh2add rd rs1 rs2 => encR 0b0010000 rs2 rs1 4 rd 0x33
  | .sh3add rd rs1 rs2 => encR 0b0010000 rs2 rs1 6 rd 0x33
  | .andn rd rs1 rs2 => encR 0b0100000 rs2 rs1 7 rd 0x33
  | .orn rd rs1 rs2 => encR 0b0100000 rs2 rs1 6 rd 0x33
  | .xnor rd rs1 rs2 => encR 0b0100000 rs2 rs1 4 rd 0x33
  | .clz rd rs1 => encR 0b0110000 0 rs1 1 rd 0x13
  | .ctz rd rs1 => encR 0b0110000 1 rs1 1 rd 0x13
  | .cpop rd rs1 => encR 0b0110000 2 rs1 1 rd 0x13
  | .max rd rs1 rs2 => encR 0b0000101 rs2 rs1 6 rd 0x33
  | .maxu rd rs1 rs2 => encR 0b0000101 rs2 rs1 7 rd 0x33
  | .min rd rs1 rs2 => encR 0b0000101 rs2 rs1 4 rd 0x33
  | .minu rd rs1 rs2 => encR 0b0000101 rs2 rs1 5 rd 0x33
  | .sextB rd rs1 => encR 0b0110000 4 rs1 1 rd 0x13
  | .sextH rd rs1 => encR 0b0110000 5 rs1 1 rd 0x13
  | .zextH rd rs1 => encR 0b0000100 0 rs1 4 rd 0x33
  | .rol rd rs1 rs2 => encR 0b0110000 rs2 rs1 1 rd 0x33
  | .ror rd rs1 rs2 => encR 0b0110000 rs2 rs1 5 rd 0x33
  | .rori rd rs1 sh => encR 0b0110000 sh rs1 5 rd 0x13
  | .orcB rd rs1 => encR 0b0010100 0b00111 rs1 5 rd 0x13
  | .rev8 rd rs1 => encR 0b0110100 0b11000 rs1 5 rd 0x13
  | .clmul rd rs1 rs2 => encR 0b0000101 rs2 rs1 1 rd 0x33
  | .clmulh rd rs1 rs2 => encR 0b0000101 rs2 rs1 3 rd 0x33
  | .clmulr rd rs1 rs2 => encR 0b0000101 rs2 rs1 2 rd 0x33
  | .bclr rd rs1 rs2 => encR 0b0100100 rs2 rs1 1 rd 0x33
  | .bclri rd rs1 sh => encR 0b0100100 sh rs1 1 rd 0x13
  | .bext rd rs1 rs2 => encR 0b0100100 rs2 rs1 5 rd 0x33
  | .bexti rd rs1 sh => encR 0b0100100 sh rs1 5 rd 0x13
  | .binv rd rs1 rs2 => encR 0b0110100 rs2 rs1 1 rd 0x33
  | .binvi rd rs1 sh => encR 0b0110100 sh rs1 1 rd 0x13
  | .bset rd rs1 rs2 => encR 0b0010100 rs2 rs1 1 rd 0x33
  | .bseti rd rs1 sh => encR 0b0010100 sh rs1 1 rd 0x13
  | .cAddi4spn rd' u =>
    .half (0#3 ++ u.extractLsb' 4 2 ++ u.extractLsb' 6 4 ++ u.extractLsb' 2 1 ++ u.extractLsb' 3 1 ++ rd' ++ 0#2)
  | .cLw rd' rs1' uimm => encCL 2 uimm rs1' rd'
  | .cSw rs2' rs1' uimm => encCL 6 uimm rs1' rs2'
  | .cNop imm => encCI6 0 imm 0
  | .cAddi rd imm => encCI6 0 imm rd
  | .cJal off => encCJ 1 off
  | .cLi rd imm => encCI6 2 imm rd
  | .cAddi16sp i =>
    encCI 3 (i.extractLsb' 9 1) 2
      (i.extractLsb' 4 1 ++ i.extractLsb' 6 1 ++ i.extractLsb' 7 2 ++ i.extractLsb' 5 1) 1
  | .cLui rd imm => encCI6 3 imm rd
  | .cSrli rd' sh => encCBAlu 0 0 rd' sh
  | .cSrai rd' sh => encCBAlu 0 1 rd' sh
  | .cAndi rd' imm => encCBAlu (imm.extractLsb' 5 1) 2 rd' (imm.extractLsb' 0 5)
  | .cSub rd' rs2' => encCA 0 rd' rs2'
  | .cXor rd' rs2' => encCA 1 rd' rs2'
  | .cOr rd' rs2' => encCA 2 rd' rs2'
  | .cAnd rd' rs2' => encCA 3 rd' rs2'
  | .cJ off => encCJ 5 off
  | .cBeqz rs1' off => encCB 6 off rs1'
  | .cBnez rs1' off => encCB 7 off rs1'
  | .cSlli rd sh => encCI 0 0 rd sh 2
  | .cLwsp rd u => encCI 2 (u.extractLsb' 5 1) rd (u.extractLsb' 2 3 ++ u.extractLsb' 6 2) 2
  | .cJr rs1 => encCR 0 rs1 0
  | .cMv rd rs2 => encCR 0 rd rs2
  | .cEbreak => encCR 1 0 0
  | .cJalr rs1 => encCR 1 rs1 0
  | .cAdd rd rs2 => encCR 1 rd rs2
  | .cSwsp rs2 u => .half (6#3 ++ u.extractLsb' 2 4 ++ u.extractLsb' 6 2 ++ rs2 ++ 2#2)

end Sys2Proof
end

