-- ==== Sys2Proof/Machine/Available.lean ====
section
/-! DEFINITION. Instructions that only some models have (spec/30_encoding.md R190). -/

namespace Sys2Proof.Machine

/-- An instruction the model does not have (R190): IllegalInstruction with its own bits. -/
def State.illegal (s : State) (i : Instr) : Outcome := s.raiseExc (.illegalInstruction (encode i).bits)

/-- The A extension is on V3A only (R314). -/
def State.withA (s : State) (i : Instr) (o : Outcome) : Outcome := if s.cfg.model = .v3a then o else s.illegal i

/-- A B sub-extension is on V3B and V3C, where the configuration has it (R360, D15). -/
def State.withB (s : State) (has : Bool) (i : Instr) (o : Outcome) : Outcome :=
  if s.cfg.model ≠ .v3a ∧ has = true then o else s.illegal i

end Sys2Proof.Machine
end

