-- ==== Sys2Proof/Machine/Flags.lean ====
section
/-! DEFINITION. The ISA has no condition codes, status flags or predicate registers (spec/10_state.md R36): nothing
here is state. What takes their place are the comparisons of the branches and set-less-than instructions (R214, R215,
R225, R226, R243 to R248). -/

namespace Sys2Proof.Machine

/-- `signed(a) < signed(b)` (R11). -/
def lessSigned (a b : Word) : Bool := a.slt b

/-- `unsigned(a) < unsigned(b)` (R11). -/
def lessUnsigned (a b : Word) : Bool := a.ult b

/-- A truth value as a 32-bit word: exactly 0 or 1 (R214). -/
def boolWord (b : Bool) : Word := if b then 1 else 0

end Sys2Proof.Machine
end

