-- ==== Sys2Proof/Machine/Atomic.lean ====
section
/-! DEFINITION. The atomics of V3A (spec/44_a.md R300 to R316). -/

namespace Sys2Proof.Machine

/-- `lr.w` (R303): the word is loaded and reserved. aq and rl order other agents' views only (R300). -/
def execLrW (aq rl : Bool) (rd rs1 : Reg) (s : State) : Outcome :=
  s.withA (.lrW aq rl rd rs1)
    (s.run (s.loadData .word (s.readReg rs1)) fun v s' =>
      ({ s' with resv := some ⟨s.readReg rs1, true⟩ } : State).retire rd v 4)

/-- Whether `sc.w` at an address succeeds, and the state after: it does with a valid reservation of that word, a free
bit decides where validity is not defined, else it fails (R301; log entry 9). -/
def State.scOutcome (s : State) (a : Word) : Bool × State :=
  match s.resv with
  | none => (false, s)
  | some r => if r.addr = a then (if r.certain then (true, s) else (s.free.getLsbD 0, s.drawn)) else (false, s)

/-- The state after `sc.w` but for its store: no reservation, the result code, the pc (R304). -/
def State.scDone (s : State) (rd : Reg) (code : Word) : State :=
  (({ s with resv := none } : State).writeReg rd code).advance 4

/-- `sc.w` (R304): alignment is checked first; it stores and gives 0, or gives 1. -/
def execScW (aq rl : Bool) (rd rs2 rs1 : Reg) (s : State) : Outcome :=
  s.withA (.scW aq rl rd rs2 rs1)
    (if aligned .word (s.readReg rs1) = false then s.raiseExc (.storeAddressMisaligned (s.readReg rs1))
     else if (s.scOutcome (s.readReg rs1)).1 then
       s.run (s.storeData .word (s.readReg rs1) (s.readReg rs2) ((s.scOutcome (s.readReg rs1)).2.scDone rd 0))
         fun _ s' => .next s'
     else .next ((s.scOutcome (s.readReg rs1)).2.scDone rd 1))

/-- The common operation of the AMOs (R316). -/
def State.amoInstr (s : State) (f : Word → Word → Word) (rd rs2 rs1 : Reg) : Outcome :=
  s.run (s.amoData f rd (s.readReg rs1) (s.readReg rs2)) fun _ s' => .next s'

/-- `amoswap.w` (R305). -/
def execAmoswapW (aq rl : Bool) (rd rs2 rs1 : Reg) (s : State) : Outcome :=
  s.withA (.amoswapW aq rl rd rs2 rs1) (s.amoInstr (fun _ v => v) rd rs2 rs1)

/-- `amoadd.w` (R306). -/
def execAmoaddW (aq rl : Bool) (rd rs2 rs1 : Reg) (s : State) : Outcome :=
  s.withA (.amoaddW aq rl rd rs2 rs1) (s.amoInstr (fun t v => t + v) rd rs2 rs1)

/-- `amoxor.w` (R307). -/
def execAmoxorW (aq rl : Bool) (rd rs2 rs1 : Reg) (s : State) : Outcome :=
  s.withA (.amoxorW aq rl rd rs2 rs1) (s.amoInstr (fun t v => t ^^^ v) rd rs2 rs1)

/-- `amoand.w` (R308). -/
def execAmoandW (aq rl : Bool) (rd rs2 rs1 : Reg) (s : State) : Outcome :=
  s.withA (.amoandW aq rl rd rs2 rs1) (s.amoInstr (fun t v => t &&& v) rd rs2 rs1)

/-- `amoor.w` (R309). -/
def execAmoorW (aq rl : Bool) (rd rs2 rs1 : Reg) (s : State) : Outcome :=
  s.withA (.amoorW aq rl rd rs2 rs1) (s.amoInstr (fun t v => t ||| v) rd rs2 rs1)

/-- `amomin.w` (R310). -/
def execAmominW (aq rl : Bool) (rd rs2 rs1 : Reg) (s : State) : Outcome :=
  s.withA (.amominW aq rl rd rs2 rs1) (s.amoInstr (fun t v => if lessSigned t v then t else v) rd rs2 rs1)

/-- `amomax.w` (R311). -/
def execAmomaxW (aq rl : Bool) (rd rs2 rs1 : Reg) (s : State) : Outcome :=
  s.withA (.amomaxW aq rl rd rs2 rs1) (s.amoInstr (fun t v => if lessSigned v t then t else v) rd rs2 rs1)

/-- `amominu.w` (R312). -/
def execAmominuW (aq rl : Bool) (rd rs2 rs1 : Reg) (s : State) : Outcome :=
  s.withA (.amominuW aq rl rd rs2 rs1) (s.amoInstr (fun t v => if lessUnsigned t v then t else v) rd rs2 rs1)

/-- `amomaxu.w` (R313). -/
def execAmomaxuW (aq rl : Bool) (rd rs2 rs1 : Reg) (s : State) : Outcome :=
  s.withA (.amomaxuW aq rl rd rs2 rs1) (s.amoInstr (fun t v => if lessUnsigned v t then t else v) rd rs2 rs1)

end Sys2Proof.Machine
end

