-- ==== Sys2Proof/Machine/BitManip.lean ====
section
/-! DEFINITION. The bit-manipulation candidates Zba, Zbb, Zbc and Zbs (spec/46_b.md R360 to R392). -/

namespace Sys2Proof.Machine

/-- The number of 0 bits above the highest 1 bit; 32 for 0 (R367). -/
def leadingZeros (v : Word) : Word := if v = 0 then 32 else BitVec.ofNat 32 (31 - v.toNat.log2)

/-- The number of 0 bits below the lowest 1 bit, of at most `fuel`. -/
def zerosBelow : Nat → Nat → Nat
  | 0, _ => 0
  | fuel + 1, v => if v % 2 = 1 then 0 else zerosBelow fuel (v / 2) + 1

/-- The number of 1 bits among the lowest `fuel`. -/
def onesIn : Nat → Nat → Nat
  | 0, _ => 0
  | fuel + 1, v => v % 2 + onesIn fuel (v / 2)

/-- The XOR of the shifted copies of `a` that the low `k` bits of `b` select: the carry-less product for k = 32
(R382). -/
def carrylessProduct (a b : Word) : Nat → BitVec 64
  | 0 => 0
  | k + 1 => carrylessProduct a b k ^^^ (if b.getLsbD k then a.zeroExtend 64 <<< k else 0)

/-- Rotation left (R377). -/
def rotateL (v : Word) (k : Nat) : Word := (v <<< k) ||| (v >>> ((32 - k) % 32))

/-- Rotation right (R378). -/
def rotateR (v : Word) (k : Nat) : Word := (v >>> k) ||| (v <<< ((32 - k) % 32))

/-- A byte of `orc.b` (R380). -/
def orByte (b : Byte) : Byte := if b = 0 then 0 else 0xFF

/-- A 1 at a bit index (R385 to R392). -/
def bitAt (k : Nat) : Word := 1 <<< k

/-- The bit index of a register operand: its low 5 bits (R385). -/
def bitIndex (v : Word) : Nat := (v.extractLsb' 0 5).toNat

/-- `sh1add` (R361). -/
def execSh1add (rd rs1 rs2 : Reg) (s : State) : Outcome :=
  s.withB s.cfg.zba (.sh1add rd rs1 rs2) (s.retire rd (s.readReg rs2 + (s.readReg rs1 <<< 1)) 4)

/-- `sh2add` (R362). -/
def execSh2add (rd rs1 rs2 : Reg) (s : State) : Outcome :=
  s.withB s.cfg.zba (.sh2add rd rs1 rs2) (s.retire rd (s.readReg rs2 + (s.readReg rs1 <<< 2)) 4)

/-- `sh3add` (R363). -/
def execSh3add (rd rs1 rs2 : Reg) (s : State) : Outcome :=
  s.withB s.cfg.zba (.sh3add rd rs1 rs2) (s.retire rd (s.readReg rs2 + (s.readReg rs1 <<< 3)) 4)

/-- `andn` (R364). -/
def execAndn (rd rs1 rs2 : Reg) (s : State) : Outcome :=
  s.withB s.cfg.zbb (.andn rd rs1 rs2) (s.retire rd (s.readReg rs1 &&& ~~~s.readReg rs2) 4)

/-- `orn` (R365). -/
def execOrn (rd rs1 rs2 : Reg) (s : State) : Outcome :=
  s.withB s.cfg.zbb (.orn rd rs1 rs2) (s.retire rd (s.readReg rs1 ||| ~~~s.readReg rs2) 4)

/-- `xnor` (R366). -/
def execXnor (rd rs1 rs2 : Reg) (s : State) : Outcome :=
  s.withB s.cfg.zbb (.xnor rd rs1 rs2) (s.retire rd (~~~(s.readReg rs1 ^^^ s.readReg rs2)) 4)

/-- `clz` (R367). -/
def execClz (rd rs1 : Reg) (s : State) : Outcome :=
  s.withB s.cfg.zbb (.clz rd rs1) (s.retire rd (leadingZeros (s.readReg rs1)) 4)

/-- `ctz` (R368). -/
def execCtz (rd rs1 : Reg) (s : State) : Outcome :=
  s.withB s.cfg.zbb (.ctz rd rs1) (s.retire rd (BitVec.ofNat 32 (zerosBelow 32 (s.readReg rs1).toNat)) 4)

/-- `cpop` (R369). -/
def execCpop (rd rs1 : Reg) (s : State) : Outcome :=
  s.withB s.cfg.zbb (.cpop rd rs1) (s.retire rd (BitVec.ofNat 32 (onesIn 32 (s.readReg rs1).toNat)) 4)

/-- `max` (R370). -/
def execMax (rd rs1 rs2 : Reg) (s : State) : Outcome :=
  s.withB s.cfg.zbb (.max rd rs1 rs2) (s.retire rd (if (s.readReg rs1).slt (s.readReg rs2) then s.readReg rs2 else s.readReg rs1) 4)

/-- `maxu` (R371). -/
def execMaxu (rd rs1 rs2 : Reg) (s : State) : Outcome :=
  s.withB s.cfg.zbb (.maxu rd rs1 rs2) (s.retire rd (if (s.readReg rs1).ult (s.readReg rs2) then s.readReg rs2 else s.readReg rs1) 4)

/-- `min` (R372). -/
def execMin (rd rs1 rs2 : Reg) (s : State) : Outcome :=
  s.withB s.cfg.zbb (.min rd rs1 rs2) (s.retire rd (if (s.readReg rs1).slt (s.readReg rs2) then s.readReg rs1 else s.readReg rs2) 4)

/-- `minu` (R373). -/
def execMinu (rd rs1 rs2 : Reg) (s : State) : Outcome :=
  s.withB s.cfg.zbb (.minu rd rs1 rs2) (s.retire rd (if (s.readReg rs1).ult (s.readReg rs2) then s.readReg rs1 else s.readReg rs2) 4)

/-- `sext.b` (R374). -/
def execSextB (rd rs1 : Reg) (s : State) : Outcome :=
  s.withB s.cfg.zbb (.sextB rd rs1) (s.retire rd (sext32 ((s.readReg rs1).extractLsb' 0 8)) 4)

/-- `sext.h` (R375). -/
def execSextH (rd rs1 : Reg) (s : State) : Outcome :=
  s.withB s.cfg.zbb (.sextH rd rs1) (s.retire rd (sext32 ((s.readReg rs1).extractLsb' 0 16)) 4)

/-- `zext.h` (R376). -/
def execZextH (rd rs1 : Reg) (s : State) : Outcome :=
  s.withB s.cfg.zbb (.zextH rd rs1) (s.retire rd (zext32 ((s.readReg rs1).extractLsb' 0 16)) 4)

/-- `rol` (R377). -/
def execRol (rd rs1 rs2 : Reg) (s : State) : Outcome :=
  s.withB s.cfg.zbb (.rol rd rs1 rs2) (s.retire rd (rotateL (s.readReg rs1) (bitIndex (s.readReg rs2))) 4)

/-- `ror` (R378). -/
def execRor (rd rs1 rs2 : Reg) (s : State) : Outcome :=
  s.withB s.cfg.zbb (.ror rd rs1 rs2) (s.retire rd (rotateR (s.readReg rs1) (bitIndex (s.readReg rs2))) 4)

/-- `rori` (R379). -/
def execRori (rd rs1 : Reg) (shamt : BitVec 5) (s : State) : Outcome :=
  s.withB s.cfg.zbb (.rori rd rs1 shamt) (s.retire rd (rotateR (s.readReg rs1) shamt.toNat) 4)

/-- `orc.b` (R380). -/
def execOrcB (rd rs1 : Reg) (s : State) : Outcome :=
  s.withB s.cfg.zbb (.orcB rd rs1) (s.retire rd (orByte ((s.readReg rs1).extractLsb' 24 8) ++ orByte ((s.readReg rs1).extractLsb' 16 8) ++ orByte ((s.readReg rs1).extractLsb' 8 8) ++ orByte ((s.readReg rs1).extractLsb' 0 8)) 4)

/-- `rev8` (R381). -/
def execRev8 (rd rs1 : Reg) (s : State) : Outcome :=
  s.withB s.cfg.zbb (.rev8 rd rs1) (s.retire rd ((s.readReg rs1).extractLsb' 0 8 ++ (s.readReg rs1).extractLsb' 8 8 ++ (s.readReg rs1).extractLsb' 16 8 ++ (s.readReg rs1).extractLsb' 24 8) 4)

/-- `clmul` (R382). -/
def execClmul (rd rs1 rs2 : Reg) (s : State) : Outcome :=
  s.withB s.cfg.zbc (.clmul rd rs1 rs2) (s.retire rd ((carrylessProduct (s.readReg rs1) (s.readReg rs2) 32).extractLsb' 0 32) 4)

/-- `clmulh` (R383). -/
def execClmulh (rd rs1 rs2 : Reg) (s : State) : Outcome :=
  s.withB s.cfg.zbc (.clmulh rd rs1 rs2) (s.retire rd ((carrylessProduct (s.readReg rs1) (s.readReg rs2) 32).extractLsb' 32 32) 4)

/-- `clmulr` (R384). -/
def execClmulr (rd rs1 rs2 : Reg) (s : State) : Outcome :=
  s.withB s.cfg.zbc (.clmulr rd rs1 rs2) (s.retire rd ((carrylessProduct (s.readReg rs1) (s.readReg rs2) 32).extractLsb' 31 32) 4)

/-- `bclr` (R385). -/
def execBclr (rd rs1 rs2 : Reg) (s : State) : Outcome :=
  s.withB s.cfg.zbs (.bclr rd rs1 rs2) (s.retire rd (s.readReg rs1 &&& ~~~bitAt (bitIndex (s.readReg rs2))) 4)

/-- `bclri` (R386). -/
def execBclri (rd rs1 : Reg) (shamt : BitVec 5) (s : State) : Outcome :=
  s.withB s.cfg.zbs (.bclri rd rs1 shamt) (s.retire rd (s.readReg rs1 &&& ~~~bitAt shamt.toNat) 4)

/-- `bext` (R387). -/
def execBext (rd rs1 rs2 : Reg) (s : State) : Outcome :=
  s.withB s.cfg.zbs (.bext rd rs1 rs2) (s.retire rd (if (s.readReg rs1).getLsbD (bitIndex (s.readReg rs2)) then 1 else 0) 4)

/-- `bexti` (R388). -/
def execBexti (rd rs1 : Reg) (shamt : BitVec 5) (s : State) : Outcome :=
  s.withB s.cfg.zbs (.bexti rd rs1 shamt) (s.retire rd (if (s.readReg rs1).getLsbD shamt.toNat then 1 else 0) 4)

/-- `binv` (R389). -/
def execBinv (rd rs1 rs2 : Reg) (s : State) : Outcome :=
  s.withB s.cfg.zbs (.binv rd rs1 rs2) (s.retire rd (s.readReg rs1 ^^^ bitAt (bitIndex (s.readReg rs2))) 4)

/-- `binvi` (R390). -/
def execBinvi (rd rs1 : Reg) (shamt : BitVec 5) (s : State) : Outcome :=
  s.withB s.cfg.zbs (.binvi rd rs1 shamt) (s.retire rd (s.readReg rs1 ^^^ bitAt shamt.toNat) 4)

/-- `bset` (R391). -/
def execBset (rd rs1 rs2 : Reg) (s : State) : Outcome :=
  s.withB s.cfg.zbs (.bset rd rs1 rs2) (s.retire rd (s.readReg rs1 ||| bitAt (bitIndex (s.readReg rs2))) 4)

/-- `bseti` (R392). -/
def execBseti (rd rs1 : Reg) (shamt : BitVec 5) (s : State) : Outcome :=
  s.withB s.cfg.zbs (.bseti rd rs1 shamt) (s.retire rd (s.readReg rs1 ||| bitAt shamt.toNat) 4)

end Sys2Proof.Machine
end

