-- ==== Sys2Proof/Machine/Control.lean ====
section
/-! DEFINITION. Jumps and branches (spec/41_rv32i_control_mem.md R241 to R249). -/

namespace Sys2Proof.Machine

/-- A conditional branch of `len` bytes (R249): no register is written. -/
def State.branch (s : State) (taken : Bool) (off len : Word) : Outcome :=
  .next (s.setPc (if taken then s.pc + off else s.nextPc len))

/-- A jump that links in rd; the target is computed before rd is written (R241, R242). -/
def State.jump (s : State) (rd : Reg) (target len : Word) : Outcome :=
  .next ((s.writeReg rd (s.nextPc len)).setPc target)

/-- `jal` (R241). -/
def execJal (rd : Reg) (off : BitVec 21) (s : State) : Outcome := s.jump rd (s.pc + sext32 off) 4

/-- `jalr` (R242). -/
def execJalr (rd rs1 : Reg) (imm : BitVec 12) (s : State) : Outcome :=
  s.jump rd (clearBit0 (s.readReg rs1 + sext32 imm)) 4

/-- `beq` (R243). -/
def execBeq (rs1 rs2 : Reg) (off : BitVec 13) (s : State) : Outcome :=
  s.branch (s.readReg rs1 == s.readReg rs2) (sext32 off) 4

/-- `bne` (R244). -/
def execBne (rs1 rs2 : Reg) (off : BitVec 13) (s : State) : Outcome :=
  s.branch (s.readReg rs1 != s.readReg rs2) (sext32 off) 4

/-- `blt` (R245). -/
def execBlt (rs1 rs2 : Reg) (off : BitVec 13) (s : State) : Outcome :=
  s.branch (lessSigned (s.readReg rs1) (s.readReg rs2)) (sext32 off) 4

/-- `bge` (R246). -/
def execBge (rs1 rs2 : Reg) (off : BitVec 13) (s : State) : Outcome :=
  s.branch (!lessSigned (s.readReg rs1) (s.readReg rs2)) (sext32 off) 4

/-- `bltu` (R247). -/
def execBltu (rs1 rs2 : Reg) (off : BitVec 13) (s : State) : Outcome :=
  s.branch (lessUnsigned (s.readReg rs1) (s.readReg rs2)) (sext32 off) 4

/-- `bgeu` (R248). -/
def execBgeu (rs1 rs2 : Reg) (off : BitVec 13) (s : State) : Outcome :=
  s.branch (!lessUnsigned (s.readReg rs1) (s.readReg rs2)) (sext32 off) 4

end Sys2Proof.Machine
end

