-- ==== Sys2Proof/Machine/System.lean ====
section
/-! DEFINITION. System and CSR instructions (spec/42_system.md R271 to R283). -/

namespace Sys2Proof.Machine

/-- `ecall` (R271): the cause is the mode's. -/
def execEcall (s : State) : Outcome :=
  s.raiseExc (match s.effPriv with | .machine => .ecallFromM | .user => .ecallFromU)

/-- Whether `ebreak` enters debug mode in the current mode (R54, R572). -/
def State.ebreakToDebug (s : State) : Bool :=
  match s.priv with
  | .machine => s.csr.dcsr.getLsbD 15
  | .user => s.csr.dcsr.getLsbD 12

/-- What `ebreak` and `c.ebreak` do (R273, R344, R572): end the program buffer, enter debug mode, or raise Breakpoint. -/
def State.breakpoint (s : State) : Outcome :=
  if s.dbg = .progbuf then .next (s.endProgbuf 0)
  else if s.ebreakToDebug then .next (s.enterDebug 1 s.pc)
  else s.raiseExc (.breakpoint 0)

/-- `ebreak` (R273). -/
def execEbreak (s : State) : Outcome := s.breakpoint

/-- `mret` (R272): machine mode only, which the program buffer has (R570; log entry 28). -/
def execMret (s : State) : Outcome :=
  match s.effPriv with
  | .user => s.illegal .mret
  | .machine => s.trapReturn

/-- `PFIC_SCTLR.WFITOWFE` (R484, R550). -/
def State.waitForEvent (s : State) : Bool := s.pfic.sctlr.getLsbD 3

/-- `wfi` (R274, R550): to sleep; as WFE it returns at once and consumes an event that is already there (R554); in debug
mode it does nothing. -/
def execWfi (s : State) : Outcome :=
  if s.dbg ≠ .running then .next (s.advance 4)
  else if s.waitForEvent && s.eventLatch then .next { s.advance 4 with eventLatch := false }
  else .next { s.advance 4 with sleep := .asleep s.sleepDeep s.waitForEvent }

/-- `csrrw` (R275, R278). -/
def execCsrrw (rd : Reg) (csr : BitVec 12) (rs1 : Reg) (s : State) : Outcome :=
  s.csrInstr .write rd csr (s.readReg rs1) (decide (rs1 = 0)) (encode (.csrrw rd csr rs1)).bits

/-- `csrrwi` (R275, R281). -/
def execCsrrwi (rd : Reg) (csr : BitVec 12) (uimm : BitVec 5) (s : State) : Outcome :=
  s.csrInstr .write rd csr (zext32 uimm) (decide (uimm = 0)) (encode (.csrrwi rd csr uimm)).bits

/-- `csrrs` (R275, R279). -/
def execCsrrs (rd : Reg) (csr : BitVec 12) (rs1 : Reg) (s : State) : Outcome :=
  s.csrInstr .set rd csr (s.readReg rs1) (decide (rs1 = 0)) (encode (.csrrs rd csr rs1)).bits

/-- `csrrsi` (R275, R282). -/
def execCsrrsi (rd : Reg) (csr : BitVec 12) (uimm : BitVec 5) (s : State) : Outcome :=
  s.csrInstr .set rd csr (zext32 uimm) (decide (uimm = 0)) (encode (.csrrsi rd csr uimm)).bits

/-- `csrrc` (R275, R280). -/
def execCsrrc (rd : Reg) (csr : BitVec 12) (rs1 : Reg) (s : State) : Outcome :=
  s.csrInstr .clear rd csr (s.readReg rs1) (decide (rs1 = 0)) (encode (.csrrc rd csr rs1)).bits

/-- `csrrci` (R275, R283). -/
def execCsrrci (rd : Reg) (csr : BitVec 12) (uimm : BitVec 5) (s : State) : Outcome :=
  s.csrInstr .clear rd csr (zext32 uimm) (decide (uimm = 0)) (encode (.csrrci rd csr uimm)).bits

end Sys2Proof.Machine
end

