-- ==== Sys2Proof/Machine/Compressed.lean ====
section
/-! DEFINITION. The compressed instructions (spec/45_c.md R320 to R347): each does what its expansion does, two bytes long. -/

namespace Sys2Proof.Machine

/-- `c.addi4spn` (R321). -/
def execCAddi4spn (rd' : CReg) (uimm : BitVec 10) (s : State) : Outcome :=
  s.retire (wideReg rd') (s.readReg spReg + zext32 uimm) 2

/-- `c.lw` (R322). -/
def execCLw (rd' rs1' : CReg) (uimm : BitVec 7) (s : State) : Outcome :=
  s.loadInstr .word id (wideReg rd') (s.compactAddr rs1' uimm) 2

/-- `c.sw` (R323). -/
def execCSw (rs2' rs1' : CReg) (uimm : BitVec 7) (s : State) : Outcome :=
  s.storeInstr .word (s.compactAddr rs1' uimm) (s.readReg (wideReg rs2')) 2

/-- `c.nop` (R324). -/
def execCNop (_imm : BitVec 6) (s : State) : Outcome := .next (s.advance 2)

/-- `c.addi` (R325). -/
def execCAddi (rd : Reg) (imm : BitVec 6) (s : State) : Outcome := s.retire rd (s.readReg rd + sext32 imm) 2

/-- `c.jal` (R326). -/
def execCJal (off : BitVec 12) (s : State) : Outcome := s.jump raReg (s.pc + sext32 off) 2

/-- `c.li` (R327). -/
def execCLi (rd : Reg) (imm : BitVec 6) (s : State) : Outcome := s.retire rd (sext32 imm) 2

/-- `c.addi16sp` (R328). -/
def execCAddi16sp (imm : BitVec 10) (s : State) : Outcome := s.retire spReg (s.readReg spReg + sext32 imm) 2

/-- `c.lui` (R329). -/
def execCLui (rd : Reg) (imm : BitVec 6) (s : State) : Outcome := s.retire rd (sext32 (imm ++ 0#12)) 2

/-- `c.srli` (R330). -/
def execCSrli (rd' : CReg) (shamt : BitVec 5) (s : State) : Outcome :=
  s.retire (wideReg rd') (s.readReg (wideReg rd') >>> shamt.toNat) 2

/-- `c.srai` (R331). -/
def execCSrai (rd' : CReg) (shamt : BitVec 5) (s : State) : Outcome :=
  s.retire (wideReg rd') (BitVec.sshiftRight (s.readReg (wideReg rd')) shamt.toNat) 2

/-- `c.andi` (R332). -/
def execCAndi (rd' : CReg) (imm : BitVec 6) (s : State) : Outcome :=
  s.retire (wideReg rd') (s.readReg (wideReg rd') &&& sext32 imm) 2

/-- `c.sub` (R333). -/
def execCSub (rd' rs2' : CReg) (s : State) : Outcome :=
  s.retire (wideReg rd') (s.readReg (wideReg rd') - s.readReg (wideReg rs2')) 2

/-- `c.xor` (R334). -/
def execCXor (rd' rs2' : CReg) (s : State) : Outcome :=
  s.retire (wideReg rd') (s.readReg (wideReg rd') ^^^ s.readReg (wideReg rs2')) 2

/-- `c.or` (R335). -/
def execCOr (rd' rs2' : CReg) (s : State) : Outcome :=
  s.retire (wideReg rd') (s.readReg (wideReg rd') ||| s.readReg (wideReg rs2')) 2

/-- `c.and` (R336). -/
def execCAnd (rd' rs2' : CReg) (s : State) : Outcome :=
  s.retire (wideReg rd') (s.readReg (wideReg rd') &&& s.readReg (wideReg rs2')) 2

/-- `c.j` (R337). -/
def execCJ (off : BitVec 12) (s : State) : Outcome := .next (s.setPc (s.pc + sext32 off))

/-- `c.beqz` (R338). -/
def execCBeqz (rs1' : CReg) (off : BitVec 9) (s : State) : Outcome :=
  s.branch (s.readReg (wideReg rs1') == 0) (sext32 off) 2

/-- `c.bnez` (R339). -/
def execCBnez (rs1' : CReg) (off : BitVec 9) (s : State) : Outcome :=
  s.branch (s.readReg (wideReg rs1') != 0) (sext32 off) 2

/-- `c.slli` (R340). -/
def execCSlli (rd : Reg) (shamt : BitVec 5) (s : State) : Outcome := s.retire rd (s.readReg rd <<< shamt.toNat) 2

/-- `c.lwsp` (R341). -/
def execCLwsp (rd : Reg) (uimm : BitVec 8) (s : State) : Outcome := s.loadInstr .word id rd (s.stackAddr uimm) 2

/-- `c.jr` (R342). -/
def execCJr (rs1 : Reg) (s : State) : Outcome := .next (s.setPc (clearBit0 (s.readReg rs1)))

/-- `c.mv` (R343). -/
def execCMv (rd rs2 : Reg) (s : State) : Outcome := s.retire rd (s.readReg rs2) 2

/-- `c.ebreak` (R344). -/
def execCEbreak (s : State) : Outcome := s.breakpoint

/-- `c.jalr` (R345). -/
def execCJalr (rs1 : Reg) (s : State) : Outcome := s.jump raReg (clearBit0 (s.readReg rs1)) 2

/-- `c.add` (R346). -/
def execCAdd (rd rs2 : Reg) (s : State) : Outcome := s.retire rd (s.readReg rd + s.readReg rs2) 2

/-- `c.swsp` (R347). -/
def execCSwsp (rs2 : Reg) (uimm : BitVec 8) (s : State) : Outcome :=
  s.storeInstr .word (s.stackAddr uimm) (s.readReg rs2) 2

end Sys2Proof.Machine
end

