-- ==== Sys2Proof/Machine/Compute.lean ====
section
/-! DEFINITION. The integer computational instructions (spec/40_rv32i_compute.md R210 to R231). -/

namespace Sys2Proof.Machine

/-- `lui` (R211). -/
def execLui (rd : Reg) (imm : BitVec 20) (s : State) : Outcome := s.retire rd (upperImm imm) 4

/-- `auipc` (R212). -/
def execAuipc (rd : Reg) (imm : BitVec 20) (s : State) : Outcome := s.retire rd (s.pc + upperImm imm) 4

/-- `addi` (R213). -/
def execAddi (rd rs1 : Reg) (imm : BitVec 12) (s : State) : Outcome := s.retire rd (s.readReg rs1 + sext32 imm) 4

/-- `slti` (R214). -/
def execSlti (rd rs1 : Reg) (imm : BitVec 12) (s : State) : Outcome :=
  s.retire rd (boolWord (lessSigned (s.readReg rs1) (sext32 imm))) 4

/-- `sltiu` (R215). -/
def execSltiu (rd rs1 : Reg) (imm : BitVec 12) (s : State) : Outcome :=
  s.retire rd (boolWord (lessUnsigned (s.readReg rs1) (sext32 imm))) 4

/-- `xori` (R216). -/
def execXori (rd rs1 : Reg) (imm : BitVec 12) (s : State) : Outcome := s.retire rd (s.readReg rs1 ^^^ sext32 imm) 4

/-- `ori` (R217). -/
def execOri (rd rs1 : Reg) (imm : BitVec 12) (s : State) : Outcome := s.retire rd (s.readReg rs1 ||| sext32 imm) 4

/-- `andi` (R218). -/
def execAndi (rd rs1 : Reg) (imm : BitVec 12) (s : State) : Outcome := s.retire rd (s.readReg rs1 &&& sext32 imm) 4

/-- `slli` (R219). -/
def execSlli (rd rs1 : Reg) (shamt : BitVec 5) (s : State) : Outcome := s.retire rd (s.readReg rs1 <<< shamt.toNat) 4

/-- `srli` (R220). -/
def execSrli (rd rs1 : Reg) (shamt : BitVec 5) (s : State) : Outcome := s.retire rd (s.readReg rs1 >>> shamt.toNat) 4

/-- `srai` (R221). -/
def execSrai (rd rs1 : Reg) (shamt : BitVec 5) (s : State) : Outcome :=
  s.retire rd (BitVec.sshiftRight (s.readReg rs1) shamt.toNat) 4

/-- The shift amount of a register operand: its low 5 bits (R224). -/
def shiftAmount (v : Word) : Nat := (v.extractLsb' 0 5).toNat

/-- `add` (R222). -/
def execAdd (rd rs1 rs2 : Reg) (s : State) : Outcome := s.retire rd (s.readReg rs1 + s.readReg rs2) 4

/-- `sub` (R223). -/
def execSub (rd rs1 rs2 : Reg) (s : State) : Outcome := s.retire rd (s.readReg rs1 - s.readReg rs2) 4

/-- `sll` (R224). -/
def execSll (rd rs1 rs2 : Reg) (s : State) : Outcome := s.retire rd (s.readReg rs1 <<< shiftAmount (s.readReg rs2)) 4

/-- `slt` (R225). -/
def execSlt (rd rs1 rs2 : Reg) (s : State) : Outcome :=
  s.retire rd (boolWord (lessSigned (s.readReg rs1) (s.readReg rs2))) 4

/-- `sltu` (R226). -/
def execSltu (rd rs1 rs2 : Reg) (s : State) : Outcome :=
  s.retire rd (boolWord (lessUnsigned (s.readReg rs1) (s.readReg rs2))) 4

/-- `xor` (R227). -/
def execXor (rd rs1 rs2 : Reg) (s : State) : Outcome := s.retire rd (s.readReg rs1 ^^^ s.readReg rs2) 4

/-- `srl` (R228). -/
def execSrl (rd rs1 rs2 : Reg) (s : State) : Outcome := s.retire rd (s.readReg rs1 >>> shiftAmount (s.readReg rs2)) 4

/-- `sra` (R229). -/
def execSra (rd rs1 rs2 : Reg) (s : State) : Outcome :=
  s.retire rd (BitVec.sshiftRight (s.readReg rs1) (shiftAmount (s.readReg rs2))) 4

/-- `or` (R230). -/
def execOr (rd rs1 rs2 : Reg) (s : State) : Outcome := s.retire rd (s.readReg rs1 ||| s.readReg rs2) 4

/-- `and` (R231). -/
def execAnd (rd rs1 rs2 : Reg) (s : State) : Outcome := s.retire rd (s.readReg rs1 &&& s.readReg rs2) 4

end Sys2Proof.Machine
end

