-- ==== Sys2Proof/Machine/LoadStore.lean ====
section
/-! DEFINITION. Loads, stores and fences (spec/41_rv32i_control_mem.md R250 to R263). -/

namespace Sys2Proof.Machine

/-- Sign-extension of a loaded byte (R250). -/
def signByte (v : Word) : Word := sext32 (v.extractLsb' 0 8)

/-- Sign-extension of a loaded halfword (R251). -/
def signHalf (v : Word) : Word := sext32 (v.extractLsb' 0 16)

/-- `lb` (R250, R255). -/
def execLb (rd rs1 : Reg) (imm : BitVec 12) (s : State) : Outcome :=
  s.loadInstr .byte signByte rd (s.effAddr rs1 imm) 4

/-- `lh` (R251, R255). -/
def execLh (rd rs1 : Reg) (imm : BitVec 12) (s : State) : Outcome :=
  s.loadInstr .half signHalf rd (s.effAddr rs1 imm) 4

/-- `lw` (R252, R255). -/
def execLw (rd rs1 : Reg) (imm : BitVec 12) (s : State) : Outcome := s.loadInstr .word id rd (s.effAddr rs1 imm) 4

/-- `lbu` (R253, R255). -/
def execLbu (rd rs1 : Reg) (imm : BitVec 12) (s : State) : Outcome := s.loadInstr .byte id rd (s.effAddr rs1 imm) 4

/-- `lhu` (R254, R255). -/
def execLhu (rd rs1 : Reg) (imm : BitVec 12) (s : State) : Outcome := s.loadInstr .half id rd (s.effAddr rs1 imm) 4

/-- `sb` (R256, R259). -/
def execSb (rs2 rs1 : Reg) (imm : BitVec 12) (s : State) : Outcome :=
  s.storeInstr .byte (s.effAddr rs1 imm) (s.readReg rs2) 4

/-- `sh` (R257, R259). -/
def execSh (rs2 rs1 : Reg) (imm : BitVec 12) (s : State) : Outcome :=
  s.storeInstr .half (s.effAddr rs1 imm) (s.readReg rs2) 4

/-- `sw` (R258, R259). -/
def execSw (rs2 rs1 : Reg) (imm : BitVec 12) (s : State) : Outcome :=
  s.storeInstr .word (s.effAddr rs1 imm) (s.readReg rs2) 4

/-- `fence`: the hart already observes its own accesses in order, so only the pc changes (R120, R262). -/
def execFence (_fm _pred _succ : BitVec 4) (_rs1 _rd : Reg) (s : State) : Outcome := .next (s.advance 4)

/-- `fence.i`: every later fetch sees every earlier store (R124, R263). -/
def execFenceI (_imm : BitVec 12) (_rs1 _rd : Reg) (s : State) : Outcome :=
  .next { s.advance 4 with stale := [] }

end Sys2Proof.Machine
end

