-- ==== Sys2Proof/Machine/MulDiv.lean ====
section
/-! DEFINITION. Multiplication and division (spec/43_m.md R290 to R298). -/

namespace Sys2Proof.Machine

/-- The high half of a 64-bit product. -/
def highWord (v : BitVec 64) : Word := v.extractLsb' 32 32

/-- Signed division with its two special cases (R295). -/
def divSigned (a b : Word) : Word :=
  if b = 0 then 0xFFFFFFFF
  else if a = 0x80000000 ∧ b = 0xFFFFFFFF then 0x80000000
  else BitVec.ofInt 32 (a.toInt.tdiv b.toInt)

/-- Signed remainder with its two special cases; the sign is the dividend's (R297). -/
def remSigned (a b : Word) : Word :=
  if b = 0 then a
  else if a = 0x80000000 ∧ b = 0xFFFFFFFF then 0
  else BitVec.ofInt 32 (a.toInt - b.toInt * a.toInt.tdiv b.toInt)

/-- Unsigned division (R296). -/
def divUnsigned (a b : Word) : Word := if b = 0 then 0xFFFFFFFF else BitVec.ofNat 32 (a.toNat / b.toNat)

/-- Unsigned remainder (R298). -/
def remUnsigned (a b : Word) : Word := if b = 0 then a else BitVec.ofNat 32 (a.toNat % b.toNat)

/-- `mul` (R291). -/
def execMul (rd rs1 rs2 : Reg) (s : State) : Outcome := s.retire rd (s.readReg rs1 * s.readReg rs2) 4

/-- `mulh` (R292). -/
def execMulh (rd rs1 rs2 : Reg) (s : State) : Outcome :=
  s.retire rd (highWord ((s.readReg rs1).signExtend 64 * (s.readReg rs2).signExtend 64)) 4

/-- `mulhsu` (R293). -/
def execMulhsu (rd rs1 rs2 : Reg) (s : State) : Outcome :=
  s.retire rd (highWord ((s.readReg rs1).signExtend 64 * (s.readReg rs2).zeroExtend 64)) 4

/-- `mulhu` (R294). -/
def execMulhu (rd rs1 rs2 : Reg) (s : State) : Outcome :=
  s.retire rd (highWord ((s.readReg rs1).zeroExtend 64 * (s.readReg rs2).zeroExtend 64)) 4

/-- `div` (R295). -/
def execDiv (rd rs1 rs2 : Reg) (s : State) : Outcome := s.retire rd (divSigned (s.readReg rs1) (s.readReg rs2)) 4

/-- `divu` (R296). -/
def execDivu (rd rs1 rs2 : Reg) (s : State) : Outcome := s.retire rd (divUnsigned (s.readReg rs1) (s.readReg rs2)) 4

/-- `rem` (R297). -/
def execRem (rd rs1 rs2 : Reg) (s : State) : Outcome := s.retire rd (remSigned (s.readReg rs1) (s.readReg rs2)) 4

/-- `remu` (R298). -/
def execRemu (rd rs1 rs2 : Reg) (s : State) : Outcome := s.retire rd (remUnsigned (s.readReg rs1) (s.readReg rs2)) 4

end Sys2Proof.Machine
end

