-- ==== Sys2Proof/Machine/Vendor.lean ====
section
/-! DEFINITION. The meanings that a reader may give XW and custom instructions through the parameter `XW_DECODE`
(spec/47_xw_custom.md R406, D16; log entry 43). The spec supplies none: the standard configuration lists no word. -/

namespace Sys2Proof.Machine

/-- The value of an expression over the general registers. -/
def State.xwValue (s : State) : XwExpr → BitVec 64
  | .reg r => (s.readReg r).zeroExtend 64
  | .signedReg r => (s.readReg r).signExtend 64
  | .const v => v
  | .add a b => s.xwValue a + s.xwValue b
  | .sub a b => s.xwValue a - s.xwValue b
  | .mul a b => s.xwValue a * s.xwValue b
  | .and a b => s.xwValue a &&& s.xwValue b
  | .or a b => s.xwValue a ||| s.xwValue b
  | .xor a b => s.xwValue a ^^^ s.xwValue b
  | .shl a b => s.xwValue a <<< ((s.xwValue b).toNat % 64)
  | .shr a b => s.xwValue a >>> ((s.xwValue b).toNat % 64)

/-- The low word of an expression: an address, a register value. -/
def State.xwWord (s : State) (e : XwExpr) : Word := (s.xwValue e).extractLsb' 0 32

/-- The extension of a loaded value. -/
def xwExtend (w : Width) (signed : Bool) : Word → Word :=
  if signed then (match w with | .byte => signByte | .half => signHalf | .word => id) else id

/-- A copy of `n` bytes, the lowest address first; each byte makes the checks of a load and of a store. DESIGN CHOICE, log
entry 43: R404 gives no interruptibility; the copy is whole in one step, with no interrupt and no other agent between
its bytes. -/
def State.copyBytes (s : State) (dst src : Word) : Nat → Res Unit
  | 0 => .ok () s
  | n + 1 => (s.loadData .byte src).bind fun v s1 =>
      (s1.storeData .byte dst v s1).bind fun _ s2 => State.copyBytes s2 (dst + 1) (src + 1) n

/-- A vendor instruction of `len` bytes. -/
def State.vendorMeaning (s : State) (len : Word) : XwMeaning → Outcome
  | .compute rd e => s.retire rd (s.xwWord e) len
  | .load w signed rd a => s.loadInstr w (xwExtend w signed) rd (s.xwWord a) len
  | .store w a v => s.storeInstr w (s.xwWord a) (s.xwWord v) len
  | .copy dst src n =>
    s.run (s.copyBytes (s.xwWord dst) (s.xwWord src) (s.xwWord n).toNat) fun _ t => .next (t.advance len)

end Sys2Proof.Machine
end

