-- ==== Sys2Proof/Machine/Cycle.lean ====
section
/-! DEFINITION. What one step does around the meaning of an instruction: the external agents' input, sleep, interrupts
at the boundary (spec/60_exceptions.md R425), fetch (spec/20_memory.md R111), decoding (R190), debug mode. -/

namespace Sys2Proof.Machine

/-! ## Inputs (R8, R121, R487; log entry 7) -/

/-- Requests and events from outside. While the system is held in reset they are lost. -/
def State.applySignals (s : State) (i : Input) : State :=
  if s.dbg = .heldInReset then s
  else
    let nmi := i.nmi || (i.statusFault && decide (s.cfg.model ≠ .v3a) && s.csr.corecfgr.getLsbD 7)
    let r := s.request ((i.irq &&& s.cfg.irqWired &&& externalNumbers) ||| (if nmi then 4 else 0))
    { r with eventLatch := r.eventLatch || i.event }

/-- Bytes another bus master writes to memory; its store to the reserved word ends the reservation (R121, R301). -/
def State.dmaWrite (s : State) (cells : List Host.Cell) : State :=
  let ok := cells.filter fun c => decide (c.1 < 2 ^ 32) && decide (s.target (BitVec.ofNat 32 c.1) = .memory)
  { s.writeBytes ok with resv := ok.foldl (fun r c => dropWord r (BitVec.ofNat 32 c.1)) s.resv }

/-- The next input, if there is one. DESIGN CHOICE, log entry 7: another master's writes reach memory also while ndmreset
holds the system in reset (R591 does not say). -/
def State.absorb (s : State) : Res Unit :=
  match s.inputs with
  | [] => .ok () s
  | i :: rest =>
    let r := ((({ s with inputs := rest } : State).applySignals i).hclkPeriods i.hclk).dmaWrite i.dma
    match i.dmi with
    | none => .ok () r
    | some h => r.hostAccess h

/-! ## Fetch (R104, R111, R124) -/

/-- One byte of a fetch: the byte in memory, or while it is recorded as overwritten any of the values it had (R124,
D29; log entry 10). -/
def State.fetchByte (s : State) (a : Word) : Byte × State :=
  let now := Memory.read s.mem a.toNat
  match s.stale.filter (fun c => c.1 == a.toNat) with
  | [] => (now, s)
  | olds => (((now :: olds.map Prod.snd)[s.free.toNat % (olds.length + 1)]?).getD now, s.drawn)

/-- The two bytes of a parcel, low byte first; PMP and map are checked per parcel (R111, R152). -/
def State.fetchParcel (s : State) (a : Word) : Res (Byte × Byte) :=
  if s.pmpAllows .fetch a = false then .raise (.instructionAccessFault a)
  else match s.target a with
    | .memory =>
      let (b0, s1) := s.fetchByte a
      let (b1, s2) := s1.fetchByte (a + 1)
      .ok (b0, b1) s2
    | .chipDevice => .refuse (.chipDevice a)
    | _ => .raise (.instructionAccessFault a)

/-- The bytes of the instruction at the pc: one parcel, or two when its low bits are 0b11 (R111). -/
def State.fetch (s : State) : Res (List Byte) :=
  (s.fetchParcel s.pc).bind fun p s1 =>
    if isLong p.1 then (s1.fetchParcel (s.pc + 2)).bind fun q s2 => .ok [p.1, p.2, q.1, q.2] s2
    else .ok [p.1, p.2] s1

/-! ## Running an instruction -/

/-- A parcel or word, of `len` bytes, of the slots that may hold XW or custom instructions: illegal on V3A; on V3B and
V3C the meaning the parameter `XW_DECODE` gives it, refused where it gives none (R402, R403, R406, D16; log entries 12
and 43). -/
def State.vendor (s : State) (bits len : Word) : Outcome :=
  if s.cfg.model = .v3a then s.raiseExc (.illegalInstruction bits)
  else match s.cfg.xwDecode.lookup bits with
    | some m => s.vendorMeaning len m
    | none => .refused (.vendorEncoding bits)

/-- The meaning of the instruction some bytes decode to, or the exception of an illegal encoding (R190). -/
def State.runBytes (s : State) (bytes : List Byte) : Outcome :=
  match decode bytes with
  | .ok (i, _) => exec i s
  | .error (.illegalHalf p) => s.raiseExc (.illegalInstruction (zext32 p))
  | .error (.illegalWord w) => s.raiseExc (.illegalInstruction w)
  | .error (.vendorHalf p) => s.vendor (zext32 p) 2
  | .error (.vendorWord w) => s.vendor w 4
  | .error .truncated => .refused .programBuffer

/-- One instruction at the pc: the trigger on its address, the fetch, the meaning (R424, R578). -/
def State.instrCycle (s : State) : Outcome :=
  match s.firedTrigger .fetch s.pc with
  | some true => .next s.enterDebugByTrigger
  | some false => s.raiseExc (.breakpoint s.pc)
  | none => s.run s.fetch fun bytes s' => s'.runBytes bytes

/-- The bytes of a word, lowest first (R104). -/
def wordBytes (w : Word) : List Byte :=
  [w.extractLsb' 0 8, w.extractLsb' 8 8, w.extractLsb' 16 8, w.extractLsb' 24 8]

/-- One instruction of the program buffer (R569; log entry 28). -/
def State.progbufCycle (s : State) : Outcome :=
  if 32 ≤ s.pc.toNat then .refused .programBuffer
  else s.runBytes ((s.dm.progbuf.toList.flatMap wordBytes).drop s.pc.toNat)

/-! ## The boundary (R425, R552 to R556, R573, R574) -/

/-- Whether the core sleeps so deeply that a debug request cannot wake it (R552). -/
def State.deepAsleep (s : State) : Bool :=
  match s.sleep with
  | .asleep true _ => true
  | _ => false

/-- An enabled interrupt is pending, though it cannot be taken (R552, D17). -/
def State.wakeable (s : State) : Bool :=
  s.pending &&& s.enabled != 0

/-- A sleeping core: an interrupt that is taken wakes it, an event wakes WFE, a pending interrupt that cannot be taken
may wake it, which a free bit decides (R552, R553, I30; log entry 19). DESIGN CHOICE, log entry 19: a WFE that an
interrupt wakes does not consume an event that came meanwhile; the next WFE finds it (R554 does not say). -/
def State.wake (s : State) : State :=
  match s.sleep with
  | .awake => s
  | .asleep _ wfe =>
    if s.acceptedInterrupt.isSome then { s with sleep := .awake }
    else if wfe && s.eventLatch then { s with sleep := .awake, eventLatch := false }
    else if s.wakeable then (if s.free.getLsbD 0 then { s.drawn with sleep := .awake } else s.drawn)
    else s

/-- The interrupt sampled at this boundary; none during a single step with `dcsr.stepie` = 0 (R425, R574). -/
def State.sampledInterrupt (s : State) : Option Nat :=
  if s.csr.dcsr.getLsbD 2 && !s.csr.dcsr.getLsbD 11 then none else s.acceptedInterrupt

/-- The boundary after a step has a cause of higher priority than the single step's: a trigger with ACTION = 1 on the
new pc, then a halt request (R570; log entry 29). -/
def State.enterAfterStep (t : State) : State :=
  if t.firedTrigger .fetch t.pc = some true then t.enterDebugByTrigger
  else t.enterDebug (if t.dm.haltreq then 3 else 4) t.pc

/-- The end of a single step (R570, R574). DESIGN CHOICE, log entry 29: a step over `wfi`, or over an `mret` that
SLEEPONEXIT puts to sleep, in Deep Sleep too, ends at once and waits for no wake-up; the core is then awake. -/
def State.endStep (t : State) : State :=
  if t.csr.dcsr.getLsbD 2 && decide (t.dbg = .running) then t.enterAfterStep else t

/-- What happens at a boundary of an awake core: a trap for an interrupt, or one instruction. DESIGN CHOICE, log entry
25: in a single step with `dcsr.stepie` = 1 the entry of a ready interrupt is the whole step (R574 speaks only of a
stepped instruction that traps). -/
def State.boundary (s : State) : Outcome :=
  match s.sampledInterrupt with
  | some n => s.takeInterrupt n
  | none => s.instrCycle

/-- Apply a function to a next state. -/
def mapNext (f : State → State) (o : Outcome) : Outcome :=
  match o with
  | .next t => .next (f t)
  | .fault r => .fault r
  | .refused r => .refused r

/-- The state after the fetch of an `ebreak` or `c.ebreak` at the pc that enters debug mode, if there is one (R572). -/
def State.ebreakAtPc (s : State) : Option State :=
  if s.ebreakToDebug then
    match s.fetch with
    | .ok bytes s' =>
      match decode bytes with
      | .ok (i, _) => if i = .ebreak ∨ i = .cEbreak then some s' else none
      | .error _ => none
    | _ => none
  else none

/-- A halt request is served at the boundary; a trigger on the pc and an `ebreak` at the pc that enters debug mode have
the causes of higher priority (R570, R573; log entry 29). -/
def State.halt (s : State) : State :=
  match s.firedTrigger .fetch s.pc with
  | some true => s.enterDebugByTrigger
  | some false => s.enterDebug 3 s.pc
  | none =>
    match s.ebreakAtPc with
    | some s' => s'.enterDebug 1 s.pc
    | none => s.enterDebug 3 s.pc

/-- One step of a running core. DESIGN CHOICE, log entry 29: a halt request that Deep Sleep held back is not served at
the boundary at which the core wakes, which goes on with the trap or one instruction, but at the next one. -/
def State.runningCycle (s : State) : Outcome :=
  if s.dm.haltreq && !s.deepAsleep then .next s.halt
  else if s.wake.sleep = .awake then mapNext State.endStep s.wake.boundary
  else .next s.wake

/-- One step. -/
def State.cycle (s : State) : Outcome :=
  s.run s.absorb fun _ s1 =>
    match s1.dbg with
    | .running => s1.runningCycle
    | .progbuf => s1.progbufCycle
    | .halted => .next s1
    | .heldInReset => .next s1

/-! ## Placing an instruction (log entry 2) -/

/-- Memory with some bytes at consecutive addresses from the pc on, which a fetch sees as they are. -/
def State.placeBytes (s : State) (bytes : List Byte) : State :=
  let cells := bytes.zipIdx.map fun p => (byteAddr s.pc p.2, p.1)
  { s with
    mem := Memory.writeCells s.mem cells
    stale := s.stale.filter fun c => !(cells.any fun d => d.1 == c.1) }

end Sys2Proof.Machine
end

