-- ==== Sys2Proof/Machine/Step.lean ====
section
/-! DEFINITION. The step of the machine, and the placing of one instruction where it fetches. -/

namespace Sys2Proof.Machine

/-- One step: an instruction, a trap entry, a debug entry, or one interval of a core that does not run (R425, R556). -/
def step (s : State) : Host.Outcome State Fault Refusal := s.cycle

/-- The instruction of `nbits` bits with the value `w`, every higher bit 0, at the address the next step fetches from
(log entry 2). -/
def State.withFetchWord (s : State) (nbits w : Nat) : State := s.placeBytes (tableBytes (w % 2 ^ nbits))

end Sys2Proof.Machine
end

