-- ==== Sys2Proof/Safety.lean ====
section
/-! DEFINITION. The terms the statements are written in: what a completed instruction changes and leaves alone, when an
access reaches memory, what a trap entry and a trap return leave, when a step only runs an instruction, and the
invariants that every step keeps. -/

namespace Sys2Proof.Machine

/-! ## Frames -/

/-- Every byte of memory reads as before. -/
def SameMemory (s t : State) : Prop := ∀ a : Nat, Memory.read t.mem a = Memory.read s.mem a

/-- Every general register reads as before. -/
def SameRegs (s t : State) : Prop := ∀ r : Reg, t.readReg r = s.readReg r

/-- Register `rd` reads `v`, unless it is x0, and every other register reads as before (R31). -/
def WritesReg (s t : State) (rd : Reg) (v : Word) : Prop :=
  ∀ r : Reg, t.readReg r = if r = rd ∧ rd ≠ 0 then v else s.readReg r

/-- Nothing but the general registers and the pc may have changed. -/
def OnlyRegsPc (s t : State) : Prop := t = { s with regs := t.regs, pc := t.pc }

/-- The instruction completes: it leaves `v` in `rd`, `next` in the pc, and all else as it was. -/
def Completes (i : Instr) (s : State) (rd : Reg) (v next : Word) : Prop :=
  ∃ t, exec i s = .next t ∧ WritesReg s t rd v ∧ t.pc = next ∧ SameMemory s t ∧ OnlyRegsPc s t

/-! ## Data accesses -/

/-- An access of a width at an address passes every check and reaches memory (R110, R112). -/
def ReachesMemory (s : State) (k : Access) (w : Width) (a : Word) : Prop :=
  s.firedTrigger k a = none ∧ aligned w a = true ∧ s.pmpAllows k a = true ∧ s.target a = .memory

/-- The byte `k` of an access, as memory holds it (R103). -/
def byteAt (s : State) (a : Word) (k : Nat) : Byte := Memory.read s.mem (byteAddr a k)

/-- The four bytes of a word in memory, the highest address first (R103). -/
def wordAt (s : State) (a : Word) : Word := byteAt s a 3 ++ byteAt s a 2 ++ byteAt s a 1 ++ byteAt s a 0

/-- The two bytes of a halfword in memory. -/
def halfAt (s : State) (a : Word) : Half := byteAt s a 1 ++ byteAt s a 0

/-- Memory holds `bytes` from `a` on, and every other byte reads as before. -/
def WritesBytes (s t : State) (a : Word) (bytes : List Byte) : Prop :=
  (∀ k b, bytes[k]? = some b → Memory.read t.mem (byteAddr a k) = b) ∧
    ∀ c : Nat, (∀ k, k < bytes.length → c ≠ byteAddr a k) → Memory.read t.mem c = Memory.read s.mem c

/-- Nothing but the pc, memory, the fetch buffer's record and the reservation may have changed. -/
def OnlyStored (s t : State) : Prop :=
  t = { s with pc := t.pc, mem := t.mem, stale := t.stale, resv := t.resv }

/-- A reservation of another word than that of `a` is kept (R301). -/
def KeepsOtherReservation (s t : State) (a : Word) : Prop :=
  (∀ r, s.resv = some r → r.addr ≠ a &&& 0xFFFFFFFC) → t.resv = s.resv

/-- The store completes: the bytes, the pc, no register. -/
def Stores (i : Instr) (s : State) (a : Word) (bytes : List Byte) (next : Word) : Prop :=
  ∃ t, exec i s = .next t ∧ WritesBytes s t a bytes ∧ SameRegs s t ∧ t.pc = next ∧ OnlyStored s t ∧
    KeepsOtherReservation s t a

/-- The bytes of a word, lowest address first (R103). -/
def bytesOfWord (v : Word) : List Byte :=
  [v.extractLsb' 0 8, v.extractLsb' 8 8, v.extractLsb' 16 8, v.extractLsb' 24 8]

/-- The atomic read-modify-write completes: the old word in `rd`, the new word in memory, all else as it was. -/
def Updates (i : Instr) (s : State) (rd : Reg) (a v : Word) : Prop :=
  ∃ t, exec i s = .next t ∧ WritesReg s t rd (wordAt s a) ∧ WritesBytes s t a (bytesOfWord v) ∧ t.pc = s.pc + 4 ∧
    t = { s with regs := t.regs, pc := t.pc, mem := t.mem, stale := t.stale, resv := t.resv } ∧
    KeepsOtherReservation s t a

/-- The CSR instruction completes on `mscratch`: its old value in `rd`, the new value in it, all else as it was. -/
def ExchangesMscratch (i : Instr) (s : State) (rd : Reg) (v : Word) : Prop :=
  ∃ t, exec i s = .next t ∧ WritesReg s t rd s.csr.mscratch ∧ t.csr = { s.csr with mscratch := v } ∧
    t.pc = s.pc + 4 ∧ SameMemory s t ∧ t = { s with regs := t.regs, pc := t.pc, csr := t.csr }

/-- The hardware stack of `t` after an instruction from `s` that may switch it: where it is switched on or off the
frames of the handlers being run no longer pair with their returns (R446), and nothing else changes in it. -/
def StackSettled (s t : State) : Prop :=
  ∀ k : Fin 2, t.hpe[k] =
    if t.hpeEnabled ≠ s.hpeEnabled ∧ k.val < s.level then .unbalanced else s.hpe[k]

/-- The instruction writes x0 only, and leaves the CSRs as `c`; the hardware stack as far as the write switches it. -/
def LeavesCsrs (i : Instr) (s : State) (c : Csrs) : Prop :=
  ∃ t, exec i s = .next t ∧ t.csr = c ∧ t.pc = s.pc + 4 ∧ SameRegs s t ∧ SameMemory s t ∧ StackSettled s t ∧
    t = { s with pc := t.pc, csr := t.csr, hpe := t.hpe }

/-- The read completes with a value of which some bits may be free. -/
def ReadsPartly (i : Instr) (s : State) (rd : Reg) (fixed : Word → Prop) : Prop :=
  ∃ t v, exec i s = .next t ∧ WritesReg s t rd v ∧ fixed v ∧ t.pc = s.pc + 4 ∧ SameMemory s t ∧
    t = { s with regs := t.regs, pc := t.pc, freeIndex := t.freeIndex }

/-- The store to `a` completes and leaves the interrupt controller as `p` and the event latch as `latch`; nothing else
changes but the pc, a reservation of the stored word, and the hardware stack as far as the store switches it. -/
def LeavesPfic (i : Instr) (s : State) (a : Word) (p : Pfic) (latch : Bool) : Prop :=
  ∃ t, exec i s = .next t ∧ t.pfic = p ∧ t.eventLatch = latch ∧ t.pc = s.pc + 4 ∧ SameRegs s t ∧ SameMemory s t ∧
    KeepsOtherReservation s t a ∧ StackSettled s t ∧
    t = { s with pc := t.pc, pfic := t.pfic, eventLatch := t.eventLatch, resv := t.resv, hpe := t.hpe }

/-- The event latch after requests for some numbers: with SEVONPEND a number that was not pending is an event (R553). -/
def latchAfter (s : State) (mask : BitVec 256) : Bool :=
  s.eventLatch || (s.pfic.sctlr.getLsbD 4 && decide (mask &&& ~~~s.pending ≠ 0))

/-- The store to `a` completes and leaves the timer as `k`; the requests in `raised` become pending. Nothing else
changes but the pc, and a reservation of the stored word. -/
def LeavesTimer (i : Instr) (s : State) (a : Word) (k : SysTick) (raised : BitVec 256) : Prop :=
  ∃ t, exec i s = .next t ∧ t.stk = k ∧ t.pfic = { s.pfic with pend := s.pfic.pend ||| raised } ∧
    t.eventLatch = latchAfter s raised ∧ t.pc = s.pc + 4 ∧ SameRegs s t ∧ SameMemory s t ∧
    KeepsOtherReservation s t a ∧
    t = { s with pc := t.pc, stk := t.stk, pfic := t.pfic, eventLatch := t.eventLatch, resv := t.resv }

/-- A load from a device passes the checks (R110). -/
def LoadAllowed (s : State) (a : Word) : Prop := s.firedTrigger .load a = none ∧ s.pmpAllows .load a = true

/-- A store of a word to a device passes the checks (R110). -/
def StoreAllowed (s : State) (a : Word) : Prop :=
  s.firedTrigger .store a = none ∧ s.pmpAllows .store a = true

/-- An access a CSR instruction may not make (R37, R61, R276): no such register on the model, a debug register outside
debug mode, a register of machine mode or a locked `intsyscr` from user mode, a write of a read-only register. -/
def CsrForbidden (s : State) (a : BitVec 12) (writes : Bool) : Prop :=
  csrName s.cfg.model a = none ∨ (a.extractLsb' 2 10 = 0x1EC ∧ s.dbg = .running) ∨
    (s.effPriv = .user ∧ a.extractLsb' 8 2 ≠ 0) ∨
    (s.effPriv = .user ∧ a = 0x804 ∧ s.csr.intsyscr.getLsbD 31 = true) ∨
    (writes = true ∧ a.extractLsb' 10 2 = 3)

/-- Bit `n` of the 64-bit carry-less product of two words (R382). -/
def clmulBit (a b : Word) (n : Nat) : Bool :=
  (List.range 32).foldl (fun acc k => acc ^^ (b.getLsbD k && decide (k ≤ n) && a.getLsbD (n - k))) false

/-! ## Traps -/

/-- The pc a trap through a slot goes to (R431): the slot's address, or with MODE1 the word that memory holds there, bit
0 cleared. No locked PMP region denies the read of that word (log entry 35). -/
def EntryOf (s : State) (slot : Nat) (entry : Word) : Prop :=
  (s.vectorIndirect = false ∧ entry = s.vectorAddr slot) ∨
    (s.vectorIndirect = true ∧ s.target (s.vectorAddr slot) = .memory ∧
      (s.cfg.model = .v3c → pmpCheck s.csr .machine .load (s.vectorAddr slot).toNat = true) ∧
      entry = wordAt s (s.vectorAddr slot) &&& 0xFFFFFFFE)

/-- A trap through a slot can be entered at `entry`: fewer than four handlers run (R444), and the entry is R431's. -/
def CanTrap (s : State) (slot : Nat) (entry : Word) : Prop := s.level < 4 ∧ EntryOf s slot entry

/-- The state `t` is `s` after the entry sequence of R430 for a trap with these values. NEST_OV is set by
an entry at level 2 or more (R444). The handlers, the active and pending bits, the reservation and the hardware stack
are all that changes besides that, the trap CSRs, the mode, the sleep state and the pc. -/
def TrapEntered (s t : State) (cause tval : Word) (slot : Nat) (entry : Word) : Prop :=
  t.csr.mepc = s.pc ∧ t.csr.mcause = cause ∧ t.csr.mtval = tval ∧ t.priv = .machine ∧ t.pc = entry ∧
    mstatusMpp t.csr.mstatus = s.priv ∧ mstatusMpie t.csr.mstatus = mstatusMie s.csr.mstatus ∧
    mstatusMie t.csr.mstatus = (mstatusMie s.csr.mstatus && decide (s.level + 1 < s.maxLevel)) ∧
    t.csr.mstatus &&& 0xFFFFE777 = 0 ∧
    t.csr.inestcr = (if s.cfg.model ≠ .v3a ∧ 2 ≤ s.level then s.csr.inestcr ||| 0x40000000 else s.csr.inestcr) ∧
    t.handlers = slot :: s.handlers ∧ t.sleep = .awake ∧
    (∀ n, n < 256 → t.pfic.act.getLsbD n = (s.pfic.act.getLsbD n || decide (n = slot))) ∧
    (∀ n, n < 256 → t.pfic.pend.getLsbD n = (s.pfic.pend.getLsbD n && !decide (n = slot))) ∧
    SameRegs s t ∧ SameMemory s t ∧
    t = { s with
      csr := { s.csr with
        mepc := t.csr.mepc
        mcause := t.csr.mcause
        mtval := t.csr.mtval
        mstatus := t.csr.mstatus
        inestcr := t.csr.inestcr }
      priv := t.priv
      pc := t.pc
      handlers := t.handlers
      sleep := t.sleep
      pfic := { s.pfic with act := t.pfic.act, pend := t.pfic.pend }
      hpe := t.hpe
      resv := t.resv }

/-- Where its trap can be entered, the instruction takes a trap for an exception. -/
def Traps (i : Instr) (s : State) (e : Exc) : Prop :=
  ∀ entry, CanTrap s (excSlot s.cfg.model e) entry →
    ∃ t, exec i s = .next t ∧ TrapEntered s t (excCode e) (excTval e) (excSlot s.cfg.model e) entry

/-- Where the trap can be entered, the step takes a trap with a cause and a value through a slot; a single step ends there
(R574). -/
def StepTraps (s : State) (cause tval : Word) (slot : Nat) : Prop :=
  ∀ entry, CanTrap s slot entry → ∃ t, step s = .next t.endStep ∧ TrapEntered s t cause tval slot entry

/-- The core is in debug mode by a cause, in an entry at a mode (R570): dcsr has the cause and the mode, the core is awake,
and nothing else has changed but dpc. -/
def EntersDebug (s t : State) (cause : BitVec 3) : Prop :=
  t.csr.dcsr.extractLsb' 6 3 = cause ∧ t.csr.dcsr.extractLsb' 0 2 = (if s.priv = .machine then 3 else 0) ∧
    t.csr.dcsr &&& 0xFFFFFE3C = s.csr.dcsr &&& 0xFFFFFE3C ∧
    t = { s with csr := { s.csr with dpc := t.csr.dpc, dcsr := t.csr.dcsr }, dbg := .halted, sleep := .awake }

/-- The same by the trigger module, which leaves dpc undefined (R571): a free value is used. -/
def EntersDebugByTrigger (s t : State) : Prop :=
  EntersDebug { s with freeIndex := s.freeIndex + 1 } t 2

/-- A channel's address comparison holds (R578): the address is tdata2, or with MATCH it agrees with tdata2 above the
lowest 0 bit `n` of tdata2, which leaves a range of 2^(n+1) bytes. A range beyond 2^31 bytes is not in it (log 26). -/
def TriggerAddress (t1 t2 a : Word) : Prop :=
  (t1.getLsbD 7 = false ∧ a = t2) ∨
    (t1.getLsbD 7 = true ∧ ∃ n, n < 31 ∧ t2.getLsbD n = false ∧ (∀ j, j < n → t2.getLsbD j = true) ∧
      ∀ j, n < j → j < 32 → a.getLsbD j = t2.getLsbD j)

/-- A channel's address comparison fails (R578): the address is not tdata2, or with MATCH it differs from tdata2 above the
lowest 0 bit. The range that is not in `TriggerAddress` is not in this either (log entry 26). -/
def TriggerMisses (t1 t2 a : Word) : Prop :=
  (t1.getLsbD 7 = false ∧ a ≠ t2) ∨
    (t1.getLsbD 7 = true ∧ ∃ n, n < 31 ∧ t2.getLsbD n = false ∧ (∀ j, j < n → t2.getLsbD j = true) ∧
      ∃ j, n < j ∧ j < 32 ∧ a.getLsbD j ≠ t2.getLsbD j)

/-- Channel `c` is enabled, by bit `kind` of tdata1, for a kind of access in the current mode (R52). -/
def ChannelEnabled (s : State) (c : Fin 4) (kind : Nat) : Prop :=
  s.csr.tdata1[c].getLsbD kind = true ∧ s.csr.tdata1[c].getLsbD (if s.priv = .machine then 6 else 3) = true

/-- Channel `c` matches an access of the kind that bit `kind` of tdata1 enables, in the current mode, and no lower channel
does: each is not enabled, or its comparison fails (R52, R577, R578; log entry 26). -/
def ChannelMatches (s : State) (c : Fin 4) (kind : Nat) (a : Word) : Prop :=
  s.cfg.model ≠ .v3a ∧ c.val < s.cfg.triggerChannels ∧ ChannelEnabled s c kind ∧
    TriggerAddress s.csr.tdata1[c] s.csr.tdata2[c] a ∧
    ∀ j : Fin 4, j < c → ¬ChannelEnabled s j kind ∨ TriggerMisses s.csr.tdata1[j] s.csr.tdata2[j] a

/-- The CSRs a trap return leaves alone: all but `mstatus` and `intsyscr`. -/
def SameCsrsButStatus (c d : Csrs) : Prop := d = { c with mstatus := d.mstatus, intsyscr := d.intsyscr }

/-- The first steps of a trap return (R440): pc, mode, MIE, and MPIE and MPP, which keep their values or become 1 and
user mode (D12). -/
def Returned (s t : State) : Prop :=
  t.pc = s.csr.mepc &&& 0xFFFFFFFE ∧ t.priv = mstatusMpp s.csr.mstatus ∧
    mstatusMie t.csr.mstatus = mstatusMpie s.csr.mstatus ∧
    ((mstatusMpie t.csr.mstatus = mstatusMpie s.csr.mstatus ∧
        mstatusMpp t.csr.mstatus = mstatusMpp s.csr.mstatus) ∨
      (mstatusMpie t.csr.mstatus = true ∧ mstatusMpp t.csr.mstatus = .user)) ∧
    SameCsrsButStatus s.csr t.csr

/-! ## Steps -/

/-- Nothing comes between: the core runs and is awake, no external agent acts, no interrupt is taken, no halt is requested
(R425). -/
def Quiet (s : State) : Prop :=
  s.dbg = .running ∧ s.sleep = .awake ∧ s.inputs = [] ∧ s.dm.haltreq = false ∧ s.sampledInterrupt = none

/-- Nothing but an instruction happens at the next boundary: nor does a trigger match the pc (R578). -/
def Undisturbed (s : State) : Prop := Quiet s ∧ s.firedTrigger .fetch s.pc = none

/-- A parcel can be fetched at an address, and the fetch buffer holds no earlier value of it (R111, R124, R152). -/
def Fetchable (s : State) (a : Word) : Prop :=
  s.pmpAllows .fetch a = true ∧ s.target a = .memory ∧ ∀ c ∈ s.stale, c.1 ≠ a.toNat ∧ c.1 ≠ (a + 1).toNat

/-- A fetch of a parcel fails: the PMP denies it, or the address is a device of the core or holds nothing (R111, R112). That
a device of the core gives no parcel is the model's reading (log entry 21). -/
def FetchFails (s : State) (a : Word) : Prop :=
  s.pmpAllows .fetch a = false ∨ (s.target a ≠ .memory ∧ s.target a ≠ .chipDevice)

/-- The four bytes in memory at the pc. -/
def codeBytes (s : State) : List Byte :=
  [Memory.read s.mem s.pc.toNat, Memory.read s.mem (s.pc + 1).toNat, Memory.read s.mem (s.pc + 2).toNat,
    Memory.read s.mem (s.pc + 3).toNat]

/-- The parcels of an instruction of `len` bytes at the pc can be fetched. -/
def CodeFetchable (s : State) (len : Nat) : Prop :=
  Fetchable s s.pc ∧ (len = 4 → Fetchable s (s.pc + 2))

/-! ## Invariants -/

/-- Memory keeps its canonical form: addresses rise in the 4 GB space, and no entry holds an unlisted byte. -/
abbrev MemoryCanonical (s : State) : Prop := Memory.wf s.mem = true

/-- The pc and `mepc` are multiples of 2 (R34, R46). -/
abbrev PcEven (s : State) : Prop := s.pc.getLsbD 0 = false ∧ s.csr.mepc.getLsbD 0 = false

/-- The reserved and fixed bits of the CSRs read as R40 to R60 say. -/
structure CsrFieldsLegal (m : Model) (c : Csrs) : Prop where
  /-- every bit but MPP, MPIE and MIE reads 0 (R40) -/
  mstatusBits : c.mstatus &&& 0xFFFFE777 = 0
  /-- MPP is one of the two modes (R40) -/
  mppMode : c.mstatus.extractLsb' 11 2 = 0 ∨ c.mstatus.extractLsb' 11 2 = 3
  /-- bits 9 to 2 are fixed 0 (R42) -/
  mtvecBits : c.mtvec &&& 0x3FC = 0
  /-- MODE1 is 0 on V3A (R42, D35) -/
  mtvecMode : m = .v3a → c.mtvec.getLsbD 1 = false
  /-- bits 6 and 5 of every field read 0 (R141) -/
  pmpcfgBits : c.pmpcfg0 &&& 0x60606060 = 0
  /-- TYPE is 2, DMODE 1, MASKMAX 0x1F, the reserved bits 0 (R52) -/
  tdata1Bits : ∀ i : Fin 4, c.tdata1[i] &&& 0xFFFFEF30 = 0x2BE00000
  /-- debugver is 4, prv one of the two modes (R54) -/
  dcsrBits : c.dcsr &&& 0xFFFF6438 = 0x40000000
  prvMode : c.dcsr.extractLsb' 0 2 = 0 ∨ c.dcsr.extractLsb' 0 2 = 3
  /-- the reset value's fixed bits, with LOCK 0 (R58; log entry 37) -/
  intsyscrBits : c.intsyscr &&& 0xFFFFFFD0 = 0xE000
  /-- reserved bits 0, FETCH_MODE not 10 (R59) -/
  corecfgrBits : c.corecfgr &&& 0xFFFFFF50 = 0
  fetchMode : c.corecfgr.extractLsb' 0 2 ≠ 2
  /-- NEST_LVL is 00 or 01; NEST_STA is not held here (R60) -/
  inestcrBits : c.inestcr &&& 0xBFFFFFFE = 0

/-- The device registers hold only implemented bits (R471, R474, R477, R478, R481, R483, R484, R532, R533). -/
structure DeviceFieldsLegal (s : State) : Prop where
  enable : s.pfic.en &&& ~~~programmable s.cfg = 0
  priorities : ∀ n, s.prioOf n &&& ~~~prioMask s.cfg.model = 0
  threshold : s.pfic.ithresdr &&& ~~~threshMask s.cfg.model = 0
  control : s.pfic.sctlr &&& 0xFFFFFFE1 = 0
  /-- the reserved internal numbers 0, 1, 4, 6, 7, 10, 11, 13 and 15 are never pending and never active (R471, I24) -/
  pendingNumbers : s.pfic.pend &&& 0xACD3 = 0
  activeNumbers : s.pfic.act &&& 0xACD3 = 0
  /-- bits 27 to 0 (R481) -/
  vtfBase : s.pfic.vtfbaddrr &&& 0x0FFFFFFF = 0
  /-- bits 23 to 20 on V3A (R483) -/
  vtfTargets : s.cfg.model = .v3a → ∀ k : Fin 4, s.pfic.vtfaddrr[k] &&& 0x00F00000 = 0
  timerControl : s.stk.ctlr &&& ~~~stkCtlrMask s.cfg.model = 0
  timerStatus : s.stk.sr &&& 0x7FFFFFFE = 0

/-- The state right after the system reset of `s` but for memory and the model's own fields (R590, R592). -/
def WasReset (s t : State) : Prop :=
  SameMemory s t ∧ t = { State.resetWith s.cfg with
    mem := t.mem
    inputs := t.inputs
    freeIndex := t.freeIndex }

end Sys2Proof.Machine
end

