-- ==== Sys2Proof/Certificates/Slice0/Obligations.lean ====
section
/-! DEFINITION. The statements for the provers, each about the machine and none about a program. The terms they are
written in stand in Sys2Proof/Safety.lean; OBLIGATIONS.json says of each which rules of spec/ it rests on. -/

open Sys2Proof Sys2Proof.Machine

/-- Fourteen words that the spec writes out from its encodings, at least one of each family, decode to the instruction
and the operands the spec prints beside them. -/
def Obligations.SpecWordsDecode : Prop :=
  decodeTableWord 32 0xFFD58513 = some (.addi 10 11 0xFFD) ∧
  decodeTableWord 32 0xFEDCB517 = some (.auipc 10 0xFEDCB) ∧
  decodeTableWord 32 0x800000EF = some (.jal 1 0x100000) ∧
  decodeTableWord 32 0x80C5E063 = some (.bltu 11 12 0x1000) ∧
  decodeTableWord 32 0xFFC5D503 = some (.lhu 10 11 0xFFC) ∧
  decodeTableWord 32 0x7EC59FA3 = some (.sh 12 11 0x7FF) ∧
  decodeTableWord 32 0x340AE573 = some (.csrrsi 10 0x340 21) ∧
  decodeTableWord 32 0x30200073 = some .mret ∧
  decodeTableWord 32 0x02C5A533 = some (.mulhsu 10 11 12) ∧
  decodeTableWord 32 0x1EC5A52F = some (.scW true true 10 12 11) ∧
  decodeTableWord 32 0x0AC5A533 = some (.clmulr 10 11 12) ∧
  decodeTableWord 16 0x5C7C = some (.cLw 7 0 124) ∧
  decodeTableWord 16 0x7101 = some (.cAddi16sp 0x200) ∧
  decodeTableWord 16 0xE399 = some (.cBnez 7 6)

/-- For every well-formed instruction and any bytes after it, decoding the bytes of its encoding gives the instruction
back and consumes exactly those bytes: no operand bit of any of the 127 rows is dropped. -/
def Obligations.DecodeOfEncode : Prop :=
  ∀ (i : Instr) (rest : List Byte), i.wf = true →
    decode ((encode i).bytes ++ rest) = .ok (i, (encode i).bytes.length)

/-- Whenever the decoder accepts some bytes, the instruction it gives is well-formed and the bytes it consumed are
exactly that instruction's encoding: each word has one meaning, and no reserved word falls through to a neighbouring
row. -/
def Obligations.EncodeOfDecode : Prop :=
  ∀ (bytes : List Byte) (i : Instr) (n : Nat), decode bytes = .ok (i, n) →
    i.wf = true ∧ n = (encode i).bytes.length ∧ bytes.take n = (encode i).bytes

/-- When nothing else happens at the boundary and the parcels at the pc can be fetched, and the bytes in memory at the
pc decode to an instruction, the step is the meaning of that instruction at that state, followed only by the end of
a single step (which does nothing unless dcsr.step is set in the new state). -/
def Obligations.StepRunsInstruction : Prop :=
  ∀ (s : State) (i : Instr) (n : Nat), Undisturbed s → CodeFetchable s n → decode (codeBytes s) = .ok (i, n) →
    step s = mapNext State.endStep (exec i s)

/-- When the bytes at the pc are no instruction, the step takes an IllegalInstruction trap: cause 2, slot 3, mtval the
word, or the parcel zero-extended to 32 bits, mepc the pc of the word, and nothing else changes but what a trap
entry changes. On V3A the same holds for the words and parcels of the vendor slots; on V3B and V3C one of these for
which the parameter XW_DECODE gives no meaning is refused. When the fetch of the parcel at the pc fails (the PMP
denies it, or the address is a device of the core or holds nothing), or that of the second parcel of a 32-bit
instruction, the step takes an instruction access fault: cause 1, slot 3, mtval the address of the failing parcel,
mepc the pc of the instruction. That a fetch from a device of the core is such a fault is the model's reading (log
entry 21, DEDUCED). -/
def Obligations.StepTrapsAtFetch : Prop :=
  ∀ (s : State), Undisturbed s →
    (∀ w, CodeFetchable s 4 → (decode (codeBytes s) = .error (.illegalWord w) ∨
        (decode (codeBytes s) = .error (.vendorWord w) ∧ s.cfg.model = .v3a)) → StepTraps s 2 w 3) ∧
    (∀ p : Half, CodeFetchable s 2 → (decode (codeBytes s) = .error (.illegalHalf p) ∨
        (decode (codeBytes s) = .error (.vendorHalf p) ∧ s.cfg.model = .v3a)) → StepTraps s 2 (p.zeroExtend 32) 3) ∧
    (∀ w, CodeFetchable s 4 → decode (codeBytes s) = .error (.vendorWord w) → s.cfg.model ≠ .v3a →
      s.cfg.xwDecode.lookup w = none → step s = .refused (.vendorEncoding w)) ∧
    (∀ p : Half, CodeFetchable s 2 → decode (codeBytes s) = .error (.vendorHalf p) → s.cfg.model ≠ .v3a →
      s.cfg.xwDecode.lookup (p.zeroExtend 32) = none → step s = .refused (.vendorEncoding (p.zeroExtend 32))) ∧
    (FetchFails s s.pc → StepTraps s 1 s.pc 3) ∧
    (Fetchable s s.pc → (Memory.read s.mem s.pc.toNat).extractLsb' 0 2 = 3 → FetchFails s (s.pc + 2) →
      StepTraps s 1 (s.pc + 2) 3)

/-- lui writes its 20-bit immediate above twelve zero bits, auipc adds that to the pc, c.li writes its sign-extended
6-bit immediate, c.lui its immediate sign-extended from bit 17 above twelve zero bits. The pc moves past the
instruction; every other register, memory and all other state stay as they were; a write of x0 is discarded. slt and
slti compare as signed numbers, sltu and sltiu as unsigned ones (the immediate of sltiu is sign-extended first), and
write 1 or 0; nothing else changes but the pc. -/
def Obligations.ImmediatesAndSetLessThan : Prop :=
  (∀ (s : State) (rd : Reg) (imm : BitVec 20) (k : BitVec 6),
     Completes (.lui rd imm) s rd (BitVec.ofNat 32 (imm.toNat * 4096)) (s.pc + 4) ∧
     Completes (.auipc rd imm) s rd (s.pc + BitVec.ofNat 32 (imm.toNat * 4096)) (s.pc + 4) ∧
     Completes (.cLi rd k) s rd (BitVec.ofInt 32 k.toInt) (s.pc + 2) ∧
     Completes (.cLui rd k) s rd (BitVec.ofInt 32 (k.toInt * 4096)) (s.pc + 2)) ∧
  (∀ (s : State) (rd rs1 rs2 : Reg) (imm : BitVec 12),
     Completes (.slt rd rs1 rs2) s rd (if (s.readReg rs1).toInt < (s.readReg rs2).toInt then 1 else 0) (s.pc + 4) ∧
     Completes (.sltu rd rs1 rs2) s rd (if (s.readReg rs1).toNat < (s.readReg rs2).toNat then 1 else 0) (s.pc + 4) ∧
     Completes (.slti rd rs1 imm) s rd (if (s.readReg rs1).toInt < imm.toInt then 1 else 0) (s.pc + 4) ∧
     Completes (.sltiu rd rs1 imm) s rd
       (if (s.readReg rs1).toNat < (BitVec.ofInt 32 imm.toInt).toNat then 1 else 0) (s.pc + 4))

/-- addi, add, sub, c.addi, c.addi4spn, c.addi16sp, c.add, c.sub and c.mv write the sum, difference or copy modulo 2^32
of their operands (immediates sign-extended, that of c.addi4spn zero-extended), read before rd is written; c.nop
writes nothing. The pc moves past the instruction and nothing else changes. -/
def Obligations.SumsAndMoves : Prop :=
  ∀ (s : State) (rd rs1 rs2 : Reg) (d e : CReg) (imm : BitVec 12) (k : BitVec 6) (u : BitVec 10),
    Completes (.addi rd rs1 imm) s rd (s.readReg rs1 + BitVec.ofInt 32 imm.toInt) (s.pc + 4) ∧
    Completes (.add rd rs1 rs2) s rd (s.readReg rs1 + s.readReg rs2) (s.pc + 4) ∧
    Completes (.sub rd rs1 rs2) s rd (s.readReg rs1 - s.readReg rs2) (s.pc + 4) ∧
    Completes (.cAddi rd k) s rd (s.readReg rd + BitVec.ofInt 32 k.toInt) (s.pc + 2) ∧
    Completes (.cAddi4spn d u) s (wideReg d) (s.readReg 2 + BitVec.ofNat 32 u.toNat) (s.pc + 2) ∧
    Completes (.cAddi16sp u) s 2 (s.readReg 2 + BitVec.ofInt 32 u.toInt) (s.pc + 2) ∧
    Completes (.cAdd rd rs2) s rd (s.readReg rd + s.readReg rs2) (s.pc + 2) ∧
    Completes (.cSub d e) s (wideReg d) (s.readReg (wideReg d) - s.readReg (wideReg e)) (s.pc + 2) ∧
    Completes (.cMv rd rs2) s rd (s.readReg rs2) (s.pc + 2) ∧
    Completes (.cNop k) s 0 0 (s.pc + 2)

/-- The logical instructions and their compressed forms write the bitwise and, or or exclusive or of their operands, an
immediate sign-extended to 32 bits; nothing else changes but the pc. -/
def Obligations.BitwiseLogic : Prop :=
  ∀ (s : State) (rd rs1 rs2 : Reg) (d e : CReg) (imm : BitVec 12) (k : BitVec 6),
    Completes (.xori rd rs1 imm) s rd (s.readReg rs1 ^^^ BitVec.ofInt 32 imm.toInt) (s.pc + 4) ∧
    Completes (.ori rd rs1 imm) s rd (s.readReg rs1 ||| BitVec.ofInt 32 imm.toInt) (s.pc + 4) ∧
    Completes (.andi rd rs1 imm) s rd (s.readReg rs1 &&& BitVec.ofInt 32 imm.toInt) (s.pc + 4) ∧
    Completes (.xor rd rs1 rs2) s rd (s.readReg rs1 ^^^ s.readReg rs2) (s.pc + 4) ∧
    Completes (.or rd rs1 rs2) s rd (s.readReg rs1 ||| s.readReg rs2) (s.pc + 4) ∧
    Completes (.and rd rs1 rs2) s rd (s.readReg rs1 &&& s.readReg rs2) (s.pc + 4) ∧
    Completes (.cAndi d k) s (wideReg d) (s.readReg (wideReg d) &&& BitVec.ofInt 32 k.toInt) (s.pc + 2) ∧
    Completes (.cXor d e) s (wideReg d) (s.readReg (wideReg d) ^^^ s.readReg (wideReg e)) (s.pc + 2) ∧
    Completes (.cOr d e) s (wideReg d) (s.readReg (wideReg d) ||| s.readReg (wideReg e)) (s.pc + 2) ∧
    Completes (.cAnd d e) s (wideReg d) (s.readReg (wideReg d) &&& s.readReg (wideReg e)) (s.pc + 2)

/-- A left shift multiplies by 2^k modulo 2^32, a logical right shift divides the unsigned value by 2^k rounding down,
an arithmetic right shift divides the signed value by 2^k rounding down, where k is the shift amount, or the low 5
bits of rs2; nothing else changes but the pc. -/
def Obligations.Shifts : Prop :=
  ∀ (s : State) (rd rs1 rs2 : Reg) (d : CReg) (k : BitVec 5),
    let a := s.readReg rs1
    let n := (s.readReg rs2).toNat % 32
    let c := s.readReg (wideReg d)
    Completes (.slli rd rs1 k) s rd (BitVec.ofNat 32 (a.toNat * 2 ^ k.toNat)) (s.pc + 4) ∧
    Completes (.srli rd rs1 k) s rd (BitVec.ofNat 32 (a.toNat / 2 ^ k.toNat)) (s.pc + 4) ∧
    Completes (.srai rd rs1 k) s rd (BitVec.ofInt 32 (a.toInt / 2 ^ k.toNat)) (s.pc + 4) ∧
    Completes (.sll rd rs1 rs2) s rd (BitVec.ofNat 32 (a.toNat * 2 ^ n)) (s.pc + 4) ∧
    Completes (.srl rd rs1 rs2) s rd (BitVec.ofNat 32 (a.toNat / 2 ^ n)) (s.pc + 4) ∧
    Completes (.sra rd rs1 rs2) s rd (BitVec.ofInt 32 (a.toInt / 2 ^ n)) (s.pc + 4) ∧
    Completes (.cSlli rd k) s rd (BitVec.ofNat 32 ((s.readReg rd).toNat * 2 ^ k.toNat)) (s.pc + 2) ∧
    Completes (.cSrli d k) s (wideReg d) (BitVec.ofNat 32 (c.toNat / 2 ^ k.toNat)) (s.pc + 2) ∧
    Completes (.cSrai d k) s (wideReg d) (BitVec.ofInt 32 (c.toInt / 2 ^ k.toNat)) (s.pc + 2)

/-- mul writes the low 32 bits of the product, mulh, mulhsu and mulhu the high 32 bits of the exact product of the
operands read as signed and signed, signed and unsigned, unsigned and unsigned numbers; nothing else changes but the
pc. For a divisor that is not zero there are a quotient and a remainder with dividend = divisor * quotient +
remainder, the remainder smaller than the divisor in absolute value and of the dividend's sign or zero, which div
and rem (signed) or divu and remu (unsigned) write modulo 2^32 (so the overflow of -2^31 by -1 gives -2^31 and 0).
For the divisor zero the quotient is all ones and the remainder the dividend. No division traps; nothing else
changes but the pc. -/
def Obligations.ProductsAndDivisions : Prop :=
  (∀ (s : State) (rd rs1 rs2 : Reg),
     let a := s.readReg rs1
     let b := s.readReg rs2
     Completes (.mul rd rs1 rs2) s rd (BitVec.ofInt 32 (a.toInt * b.toInt)) (s.pc + 4) ∧
     Completes (.mulh rd rs1 rs2) s rd (BitVec.ofInt 32 (a.toInt * b.toInt / 2 ^ 32)) (s.pc + 4) ∧
     Completes (.mulhsu rd rs1 rs2) s rd (BitVec.ofInt 32 (a.toInt * b.toNat / 2 ^ 32)) (s.pc + 4) ∧
     Completes (.mulhu rd rs1 rs2) s rd (BitVec.ofNat 32 (a.toNat * b.toNat / 2 ^ 32)) (s.pc + 4)) ∧
  (∀ (s : State) (rd rs1 rs2 : Reg),
     let a := s.readReg rs1
     let b := s.readReg rs2
     (b = 0 →
       Completes (.div rd rs1 rs2) s rd 0xFFFFFFFF (s.pc + 4) ∧
       Completes (.divu rd rs1 rs2) s rd 0xFFFFFFFF (s.pc + 4) ∧
       Completes (.rem rd rs1 rs2) s rd a (s.pc + 4) ∧ Completes (.remu rd rs1 rs2) s rd a (s.pc + 4)) ∧
     (b ≠ 0 → ∃ q r : Int, a.toInt = b.toInt * q + r ∧ |r| < |b.toInt| ∧ 0 ≤ r * a.toInt ∧
       Completes (.div rd rs1 rs2) s rd (BitVec.ofInt 32 q) (s.pc + 4) ∧
       Completes (.rem rd rs1 rs2) s rd (BitVec.ofInt 32 r) (s.pc + 4)) ∧
     (b ≠ 0 → ∃ q r : Nat, a.toNat = b.toNat * q + r ∧ r < b.toNat ∧
       Completes (.divu rd rs1 rs2) s rd (BitVec.ofNat 32 q) (s.pc + 4) ∧
       Completes (.remu rd rs1 rs2) s rd (BitVec.ofNat 32 r) (s.pc + 4)))

/-- jal and jalr write pc + 4 to rd, c.jal and c.jalr write pc + 2 to x1, and go to pc plus the offset, or to the
register value (plus the immediate) with bit 0 cleared, read before rd is written; c.j and c.jr go there and write
nothing. No other register, no memory and no other state changes. -/
def Obligations.JumpsLinkAndGo : Prop :=
  ∀ (s : State) (rd rs1 : Reg) (j : BitVec 21) (imm : BitVec 12) (c : BitVec 12),
    Completes (.jal rd j) s rd (s.pc + 4) (s.pc + BitVec.ofInt 32 j.toInt) ∧
    Completes (.jalr rd rs1 imm) s rd (s.pc + 4) ((s.readReg rs1 + BitVec.ofInt 32 imm.toInt) &&& 0xFFFFFFFE) ∧
    Completes (.cJal c) s 1 (s.pc + 2) (s.pc + BitVec.ofInt 32 c.toInt) ∧
    Completes (.cJ c) s 0 0 (s.pc + BitVec.ofInt 32 c.toInt) ∧
    Completes (.cJr rs1) s 0 0 (s.readReg rs1 &&& 0xFFFFFFFE) ∧
    Completes (.cJalr rs1) s 1 (s.pc + 2) (s.readReg rs1 &&& 0xFFFFFFFE)

/-- Each branch goes to pc plus its offset when its condition on the two registers holds (equality, signed or unsigned
order; for the compressed ones comparison with zero) and past itself otherwise; no register, no memory and no other
state changes. -/
def Obligations.BranchesChooseThePc : Prop :=
  ∀ (s : State) (rs1 rs2 : Reg) (c : CReg) (off : BitVec 13) (o : BitVec 9),
    let a := s.readReg rs1
    let b := s.readReg rs2
    let go := s.pc + BitVec.ofInt 32 off.toInt
    let goC := s.pc + BitVec.ofInt 32 o.toInt
    Completes (.beq rs1 rs2 off) s 0 0 (if a = b then go else s.pc + 4) ∧
    Completes (.bne rs1 rs2 off) s 0 0 (if a ≠ b then go else s.pc + 4) ∧
    Completes (.blt rs1 rs2 off) s 0 0 (if a.toInt < b.toInt then go else s.pc + 4) ∧
    Completes (.bge rs1 rs2 off) s 0 0 (if b.toInt ≤ a.toInt then go else s.pc + 4) ∧
    Completes (.bltu rs1 rs2 off) s 0 0 (if a.toNat < b.toNat then go else s.pc + 4) ∧
    Completes (.bgeu rs1 rs2 off) s 0 0 (if b.toNat ≤ a.toNat then go else s.pc + 4) ∧
    Completes (.cBeqz c o) s 0 0 (if s.readReg (wideReg c) = 0 then goC else s.pc + 2) ∧
    Completes (.cBnez c o) s 0 0 (if s.readReg (wideReg c) ≠ 0 then goC else s.pc + 2)

/-- A load whose access passes the checks and reaches memory writes to rd the byte, the two bytes or the four bytes at
its address, the lowest address holding the lowest bits, sign-extended for lb and lh and zero-extended for lbu and
lhu; the pc moves past it and nothing else changes, memory included. -/
def Obligations.LoadsReadMemory : Prop :=
  ∀ (s : State) (rd rs1 : Reg) (d e : CReg) (imm : BitVec 12) (u : BitVec 7) (v : BitVec 8),
    let a := s.readReg rs1 + BitVec.ofInt 32 imm.toInt
    let c := s.readReg (wideReg e) + BitVec.ofNat 32 u.toNat
    let p := s.readReg 2 + BitVec.ofNat 32 v.toNat
    (ReachesMemory s .load .byte a → Completes (.lb rd rs1 imm) s rd ((byteAt s a 0).signExtend 32) (s.pc + 4)) ∧
    (ReachesMemory s .load .byte a → Completes (.lbu rd rs1 imm) s rd ((byteAt s a 0).zeroExtend 32) (s.pc + 4)) ∧
    (ReachesMemory s .load .half a → Completes (.lh rd rs1 imm) s rd ((halfAt s a).signExtend 32) (s.pc + 4)) ∧
    (ReachesMemory s .load .half a → Completes (.lhu rd rs1 imm) s rd ((halfAt s a).zeroExtend 32) (s.pc + 4)) ∧
    (ReachesMemory s .load .word a → Completes (.lw rd rs1 imm) s rd (wordAt s a) (s.pc + 4)) ∧
    (ReachesMemory s .load .word c → Completes (.cLw d e u) s (wideReg d) (wordAt s c) (s.pc + 2)) ∧
    (ReachesMemory s .load .word p → Completes (.cLwsp rd v) s rd (wordAt s p) (s.pc + 2))

/-- A store whose access passes the checks and reaches memory puts the low byte, the two low bytes or the four bytes of
rs2 at its address, lowest bits at the lowest address; every byte outside those reads as before, no register
changes, a reservation of another word is kept, and nothing else changes but the pc and what a fetch may still see.
Stated for memory in its canonical form, which every step keeps. -/
def Obligations.StoresWriteMemory : Prop :=
  ∀ (s : State) (rs1 rs2 : Reg) (d e : CReg) (imm : BitVec 12) (u : BitVec 7) (v : BitVec 8), MemoryCanonical s →
    let a := s.readReg rs1 + BitVec.ofInt 32 imm.toInt
    let c := s.readReg (wideReg e) + BitVec.ofNat 32 u.toNat
    let p := s.readReg 2 + BitVec.ofNat 32 v.toNat
    let x := s.readReg rs2
    (ReachesMemory s .store .byte a → Stores (.sb rs2 rs1 imm) s a [x.extractLsb' 0 8] (s.pc + 4)) ∧
    (ReachesMemory s .store .half a →
      Stores (.sh rs2 rs1 imm) s a [x.extractLsb' 0 8, x.extractLsb' 8 8] (s.pc + 4)) ∧
    (ReachesMemory s .store .word a → Stores (.sw rs2 rs1 imm) s a (bytesOfWord x) (s.pc + 4)) ∧
    (ReachesMemory s .store .word c →
      Stores (.cSw d e u) s c (bytesOfWord (s.readReg (wideReg d))) (s.pc + 2)) ∧
    (ReachesMemory s .store .word p → Stores (.cSwsp rs2 v) s p (bytesOfWord x) (s.pc + 2))

/-- A halfword access at an odd address and a word access at an address that is no multiple of 4 take an exception with
mtval the address: code 4 for loads and lr.w, code 6 for stores, sc.w and AMOs. No part of the access is made: the
trap entry changes no register and no memory. Stated where no data trigger matches, outside debug mode, and where
the trap can be entered. -/
def Obligations.MisalignedAccessesTrap : Prop :=
  ∀ (s : State) (aq rl : Bool) (rd rs1 rs2 : Reg) (d e : CReg) (imm : BitVec 12) (u : BitVec 7) (v : BitVec 8),
    s.dbg = .running →
    let a := s.readReg rs1 + BitVec.ofInt 32 imm.toInt
    let c := s.readReg (wideReg e) + BitVec.ofNat 32 u.toNat
    let p := s.readReg 2 + BitVec.ofNat 32 v.toNat
    let x := s.readReg rs1
    (a.toNat % 2 ≠ 0 → s.firedTrigger .load a = none →
      Traps (.lh rd rs1 imm) s (.loadAddressMisaligned a) ∧ Traps (.lhu rd rs1 imm) s (.loadAddressMisaligned a)) ∧
    (a.toNat % 4 ≠ 0 → s.firedTrigger .load a = none → Traps (.lw rd rs1 imm) s (.loadAddressMisaligned a)) ∧
    (c.toNat % 4 ≠ 0 → s.firedTrigger .load c = none → Traps (.cLw d e u) s (.loadAddressMisaligned c)) ∧
    (p.toNat % 4 ≠ 0 → s.firedTrigger .load p = none → Traps (.cLwsp rd v) s (.loadAddressMisaligned p)) ∧
    (a.toNat % 2 ≠ 0 → s.firedTrigger .store a = none → Traps (.sh rs2 rs1 imm) s (.storeAddressMisaligned a)) ∧
    (a.toNat % 4 ≠ 0 → s.firedTrigger .store a = none → Traps (.sw rs2 rs1 imm) s (.storeAddressMisaligned a)) ∧
    (c.toNat % 4 ≠ 0 → s.firedTrigger .store c = none → Traps (.cSw d e u) s (.storeAddressMisaligned c)) ∧
    (p.toNat % 4 ≠ 0 → s.firedTrigger .store p = none → Traps (.cSwsp rs2 v) s (.storeAddressMisaligned p)) ∧
    (x.toNat % 4 ≠ 0 → s.cfg.model = .v3a →
      Traps (.lrW aq rl rd rs1) s (.loadAddressMisaligned x) ∧
      ∀ i ∈ [Instr.scW aq rl rd rs2 rs1, .amoswapW aq rl rd rs2 rs1, .amoaddW aq rl rd rs2 rs1,
          .amoxorW aq rl rd rs2 rs1, .amoandW aq rl rd rs2 rs1, .amoorW aq rl rd rs2 rs1, .amominW aq rl rd rs2 rs1,
          .amomaxW aq rl rd rs2 rs1, .amominuW aq rl rd rs2 rs1, .amomaxuW aq rl rd rs2 rs1],
        Traps i s (.storeAddressMisaligned x))

/-- Outside debug mode, an aligned load or store (compressed ones included) that matches no trigger and that the PMP
denies, or that it allows at an address that holds nothing, ends the run with the access fault of its kind and its
address: the spec does not define the state after it. On V3A, which has no PMP, the same holds for lr.w (a load),
and for sc.w with a certain reservation of the address and the AMOs (stores), at an address that holds nothing. -/
def Obligations.AccessErrorsEndTheRun : Prop :=
  ∀ (s : State) (aq rl : Bool) (rd rs1 rs2 : Reg) (d e : CReg) (imm : BitVec 12) (u : BitVec 7) (v : BitVec 8),
    s.dbg = .running →
    let a := s.readReg rs1 + BitVec.ofInt 32 imm.toInt
    let c := s.readReg (wideReg e) + BitVec.ofNat 32 u.toNat
    let p := s.readReg 2 + BitVec.ofNat 32 v.toNat
    let x := s.readReg rs1
    let fails (k : Access) (y : Word) := s.firedTrigger k y = none ∧ (s.pmpAllows k y = false ∨ s.target y = .unmapped)
    (fails .load a →
      exec (.lb rd rs1 imm) s = .fault (.loadAccess a) ∧ exec (.lbu rd rs1 imm) s = .fault (.loadAccess a) ∧
      (a.toNat % 2 = 0 →
        exec (.lh rd rs1 imm) s = .fault (.loadAccess a) ∧ exec (.lhu rd rs1 imm) s = .fault (.loadAccess a)) ∧
      (a.toNat % 4 = 0 → exec (.lw rd rs1 imm) s = .fault (.loadAccess a))) ∧
    (fails .load c → c.toNat % 4 = 0 → exec (.cLw d e u) s = .fault (.loadAccess c)) ∧
    (fails .load p → p.toNat % 4 = 0 → exec (.cLwsp rd v) s = .fault (.loadAccess p)) ∧
    (fails .store a →
      exec (.sb rs2 rs1 imm) s = .fault (.storeAccess a) ∧
      (a.toNat % 2 = 0 → exec (.sh rs2 rs1 imm) s = .fault (.storeAccess a)) ∧
      (a.toNat % 4 = 0 → exec (.sw rs2 rs1 imm) s = .fault (.storeAccess a))) ∧
    (fails .store c → c.toNat % 4 = 0 → exec (.cSw d e u) s = .fault (.storeAccess c)) ∧
    (fails .store p → p.toNat % 4 = 0 → exec (.cSwsp rs2 v) s = .fault (.storeAccess p)) ∧
    (s.cfg.model = .v3a → x.toNat % 4 = 0 → s.target x = .unmapped →
      exec (.lrW aq rl rd rs1) s = .fault (.loadAccess x) ∧
      (s.resv = some ⟨x, true⟩ → exec (.scW aq rl rd rs2 rs1) s = .fault (.storeAccess x)) ∧
      ∀ i ∈ [Instr.amoswapW aq rl rd rs2 rs1, .amoaddW aq rl rd rs2 rs1, .amoxorW aq rl rd rs2 rs1,
          .amoandW aq rl rd rs2 rs1, .amoorW aq rl rd rs2 rs1, .amominW aq rl rd rs2 rs1, .amomaxW aq rl rd rs2 rs1,
          .amominuW aq rl rd rs2 rs1, .amomaxuW aq rl rd rs2 rs1],
        exec i s = .fault (.storeAccess x))

/-- fence changes nothing but the pc, whatever its fields hold. fence.i changes nothing but the pc and the record of
overwritten bytes, which it empties: after it every fetch reads memory as it is. wfi moves past itself and puts the
core to sleep in the depth SLEEPDEEP says, as wait-for-event when WFITOWFE is set. As wait-for-event with the event
latch set it returns at once and clears the latch. In debug mode only the pc changes. Nothing else changes in any
case. -/
def Obligations.FencesAndWfi : Prop :=
  (∀ (s : State) (fm p q : BitVec 4) (imm : BitVec 12) (rs1 rd : Reg),
     exec (.fence fm p q rs1 rd) s = .next { s with pc := s.pc + 4 } ∧
     exec (.fenceI imm rs1 rd) s = .next { s with pc := s.pc + 4, stale := [] } ∧
     ∀ t, exec (.fenceI imm rs1 rd) s = .next t → ∀ a, t.fetchByte a = (Memory.read t.mem a.toNat, t)) ∧
  (∀ s : State,
     (s.dbg ≠ .running → exec .wfi s = .next { s with pc := s.pc + 4 }) ∧
     (s.dbg = .running → (s.pfic.sctlr.getLsbD 3 && s.eventLatch) = true →
       exec .wfi s = .next { s with pc := s.pc + 4, eventLatch := false }) ∧
     (s.dbg = .running → (s.pfic.sctlr.getLsbD 3 && s.eventLatch) = false →
       exec .wfi s = .next { s with
         pc := s.pc + 4
         sleep := .asleep (s.pfic.sctlr.getLsbD 2) (s.pfic.sctlr.getLsbD 3) }))

/-- Outside debug mode, where a trap can be entered, ecall traps with cause 11 from machine mode and 8 from user mode,
mtval 0 and mepc its own address, through slot 5 or 8 on V3B and V3C and slot 3 on V3A; no register and no memory
byte changes. Outside debug mode, ebreak and c.ebreak enter debug mode when dcsr.ebreakm (in machine mode) or
dcsr.ebreaku (in user mode) is set: dpc is the address of the instruction, dcsr.cause is 1, dcsr.prv the mode, and
nothing else changes. Otherwise, where a trap can be entered, they take the breakpoint exception: cause 3, mtval 0,
mepc their own address, slot 9 (3 on V3A). -/
def Obligations.EcallAndBreakpoints : Prop :=
  (∀ (s : State) (entry : Word), s.dbg = .running →
     let slot := if s.cfg.model = .v3a then 3 else if s.priv = .machine then 5 else 8
     CanTrap s slot entry →
     ∃ t, exec .ecall s = .next t ∧ TrapEntered s t (if s.priv = .machine then 11 else 8) 0 slot entry) ∧
  (∀ (s : State) (i : Instr), i = .ebreak ∨ i = .cEbreak → s.dbg = .running →
     let toDebug := s.csr.dcsr.getLsbD (if s.priv = .machine then 15 else 12)
     let slot := if s.cfg.model = .v3a then 3 else 9
     (toDebug = false → ∀ entry, CanTrap s slot entry → ∃ t, exec i s = .next t ∧ TrapEntered s t 3 0 slot entry) ∧
     (toDebug = true → ∃ t, exec i s = .next t ∧ t.csr.dpc = s.pc ∧ EntersDebug s t 1))

/-- With machine privilege (machine mode, or the program buffer) and no trap in progress mret only goes to mepc with bit
0 cleared, to the mode in MPP, with MIE taken from MPIE (MPIE and MPP keep their values or become 1 and user mode).
With one or two handlers running and no frame on the hardware stack to pop it does that and ends the innermost
handler: its active bit and GIHWSTKNEN are cleared, the level falls by one, and the core sleeps, outside debug mode,
if it was the outermost and SLEEPONEXIT is set. No general register and no memory byte changes, and nothing else.
Stated for the hardware stack switched off; the pop is the statement HardwareStackRoundTrip. That MPIE and MPP take
one of two outcomes is the model's reading of D12 (log entry 8), that the sleep is by the WFI method whatever
WFITOWFE holds is its choice (log entry 19), and so is the effect in the program buffer (log entry 28). -/
def Obligations.MretReturns : Prop :=
  ∀ s : State, s.effPriv = .machine →
    (s.handlers = [] → ∃ t, exec .mret s = .next t ∧ Returned s t ∧ t.csr.intsyscr = s.csr.intsyscr ∧
      SameRegs s t ∧ SameMemory s t ∧
      t = { s with pc := t.pc, priv := t.priv, csr := t.csr, resv := t.resv, freeIndex := t.freeIndex }) ∧
    (∀ slot rest, s.handlers = slot :: rest → rest.length ≤ 1 → s.hpeSwitch = false →
      s.hpe[rest.length]? = some .empty →
      ∃ t, exec .mret s = .next t ∧ Returned s t ∧ t.csr.intsyscr = s.csr.intsyscr &&& 0xFFFFFFDF ∧
        t.handlers = rest ∧
        (∀ n, n < 256 → t.pfic.act.getLsbD n = (s.pfic.act.getLsbD n && !decide (n = slot))) ∧
        t.sleep = (if rest = [] ∧ s.pfic.sctlr.getLsbD 1 = true ∧ s.dbg = .running then .asleep (s.pfic.sctlr.getLsbD 2) false
          else s.sleep) ∧
        SameRegs s t ∧ SameMemory s t ∧
        t = { s with
          pc := t.pc
          priv := t.priv
          csr := t.csr
          handlers := t.handlers
          pfic := { s.pfic with act := t.pfic.act }
          sleep := t.sleep
          resv := t.resv
          freeIndex := t.freeIndex })

/-- With machine privilege, each CSR instruction on mscratch puts its old value in rd and writes the register: with the
source value (csrrw, csrrwi), with the source bits set (csrrs, csrrsi) or cleared (csrrc, csrrci); a source field of
zero leaves it as it was. Source and old value are read before anything is written. No other CSR, register, memory
byte or other state changes but the pc. -/
def Obligations.CsrInstructionsExchange : Prop :=
  ∀ (s : State) (rd rs1 : Reg) (u : BitVec 5), s.effPriv = .machine →
    let old := s.csr.mscratch
    ExchangesMscratch (.csrrw rd 0x340 rs1) s rd (s.readReg rs1) ∧
    ExchangesMscratch (.csrrs rd 0x340 rs1) s rd (old ||| s.readReg rs1) ∧
    ExchangesMscratch (.csrrc rd 0x340 rs1) s rd (old &&& ~~~s.readReg rs1) ∧
    ExchangesMscratch (.csrrwi rd 0x340 u) s rd (u.zeroExtend 32) ∧
    ExchangesMscratch (.csrrsi rd 0x340 u) s rd (old ||| u.zeroExtend 32) ∧
    ExchangesMscratch (.csrrci rd 0x340 u) s rd (old &&& ~~~u.zeroExtend 32)

/-- With machine privilege, csrrs rd, csr, x0 writes to rd the value of the CSR and changes nothing else: mstatus,
mtvec, mepc, mcause, mtval on every model, misa, marchid and mimpid as fixed for the model, and on V3B and V3C
gintenr as a window onto mstatus, intsyscr, corecfgr and inestcr with the thermometer code of the nesting level.
(mscratch is in CsrInstructionsExchange, the PMP registers in PmpRegisters, the trigger and debug registers in
TriggerAndDebugRegisters.) -/
def Obligations.CsrReadValues : Prop :=
  ∀ (s : State) (rd : Reg), s.effPriv = .machine →
    (∀ e ∈ [(0x300, s.csr.mstatus), (0x305, s.csr.mtvec), (0x341, s.csr.mepc), (0x342, s.csr.mcause),
        (0x343, s.csr.mtval)], Completes (.csrrs rd e.1 0) s rd e.2 (s.pc + 4)) ∧
    (s.cfg.model = .v3a → ∀ e ∈ [(0x301, 0x40101105), (0xF12, 0), (0xF13, 0)],
      Completes (.csrrs rd e.1 0) s rd e.2 (s.pc + 4)) ∧
    (s.cfg.model ≠ .v3a →
      (∀ e ∈ [(0x301, 0x40000000 + s.cfg.misaExt.zeroExtend 32),
          (0xF12, if s.cfg.model = .v3b then 0xDC68D862 else 0xDC68D863),
          (0xF13, 0xDC688000 + 16 * s.cfg.mimpidMinor.zeroExtend 32 + s.cfg.mimpidMajor.zeroExtend 32),
          (0x800, s.csr.mstatus), (0x804, s.csr.intsyscr), (0xBC0, s.csr.corecfgr)],
        Completes (.csrrs rd e.1 0) s rd e.2 (s.pc + 4)) ∧
      (CsrFieldsLegal s.cfg.model s.csr → s.level ≤ 4 →
        Completes (.csrrs rd 0xBC1 0) s rd (s.csr.inestcr + 256 * (BitVec.ofNat 32 (2 ^ s.level - 1))) (s.pc + 4)))

/-- csrrw x0 with machine privilege stores in mstatus only MPP, MPIE and MIE (a value whose MPP is no mode is outside
the spec), in mtvec only the base and the mode bits the model has, in mepc all but bit 0, in mcause and mtval
everything, in misa nothing; on V3B and V3C in intsyscr only HWSTKEN, on later versions INESTEN and PMTCFG too, with
GIHWSTKNEN set by a 1 and kept by a 0; in corecfgr its implemented bits; in inestcr NEST_LVL as 00 or 01, NEST_OV
cleared by a 1; through gintenr only MPIE and MIE, while IE_REMAP_EN is set. A write of intsyscr that switches the
hardware stack on or off leaves the frames of the handlers being run unbalanced. No other CSR, no register, no
memory byte and nothing else changes but the pc. That the one parameter PMTCFG_IMPLEMENTED decides of INESTEN and of
PMTCFG is the model's inference (log entry 36). -/
def Obligations.CsrWriteFields : Prop :=
  ∀ (s : State) (rs1 : Reg), s.effPriv = .machine →
    let v := s.readReg rs1
    let c := s.csr
    let later := if s.cfg.pmtcfgImplemented then (0xF : Word) else 0x1
    (v.extractLsb' 11 2 = 0 ∨ v.extractLsb' 11 2 = 3 →
      LeavesCsrs (.csrrw 0 0x300 rs1) s { c with mstatus := v &&& 0x1888 }) ∧
    LeavesCsrs (.csrrw 0 0x305 rs1) s
      { c with mtvec := v &&& (if s.cfg.model = .v3a then 0xFFFFFC01 else 0xFFFFFC03) } ∧
    LeavesCsrs (.csrrw 0 0x341 rs1) s { c with mepc := v &&& 0xFFFFFFFE } ∧
    LeavesCsrs (.csrrw 0 0x342 rs1) s { c with mcause := v } ∧
    LeavesCsrs (.csrrw 0 0x343 rs1) s { c with mtval := v } ∧
    LeavesCsrs (.csrrw 0 0x301 rs1) s c ∧
    (s.cfg.model ≠ .v3a →
      LeavesCsrs (.csrrw 0 0x804 rs1) s
        { c with intsyscr := (c.intsyscr &&& ~~~later) ||| (v &&& later) ||| (v &&& 0x20) } ∧
      (v.extractLsb' 0 2 ≠ 2 → LeavesCsrs (.csrrw 0 0xBC0 rs1) s { c with corecfgr := v &&& 0xAF }) ∧
      LeavesCsrs (.csrrw 0 0xBC1 rs1) s
        { c with
          inestcr := (if c.inestcr.getLsbD 30 && !v.getLsbD 30 then 0x40000000 else 0) |||
            (if v.extractLsb' 0 2 = 0 then 0 else 1) } ∧
      LeavesCsrs (.csrrw 0 0x800 rs1) s
        (if c.corecfgr.getLsbD 5 then { c with mstatus := (c.mstatus &&& 0xFFFFFF77) ||| (v &&& 0x88) } else c))

/-- On V3C with machine privilege: pmpcfg0 reads as it is held, pmpaddr0 to 3 read their 30 bits, with the two upper
bits free. A write of pmpcfg0 takes every field with its reserved bits 0 that is not locked (or whose lock the write
clears, where PMP_LOCK_CLEARABLE says that it can), keeps a locked one, and is refused where it would leave R = 0
with W = 1. A write of pmpaddr i stores bits 29 to 0, unless region i is locked, or region i + 1 is locked in TOR
mode: then nothing changes. No other CSR, no register, no memory byte and nothing else changes but the pc. That a
write which clears a lock takes the whole field (log entry 13, DESIGN CHOICE), and that the refusal looks at the
value after the lock rules (log entry 14, DEDUCED), are the model's own. -/
def Obligations.PmpRegisters : Prop :=
  ∀ (s : State) (rd rs1 : Reg), s.effPriv = .machine → s.cfg.model = .v3c →
    let v := s.readReg rs1
    let c := s.csr
    let field (w : Word) (i : Nat) : Byte := w.extractLsb' (8 * i) 8
    let held (i : Nat) : Prop :=
      (field c.pmpcfg0 i).getLsbD 7 = true ∧ (s.cfg.pmpLockClearable = false ∨ (field v i).getLsbD 7 = true)
    let fixed (i : Nat) : Prop := (field c.pmpcfg0 i).getLsbD 7 = true ∨
      (i < 3 ∧ (field c.pmpcfg0 (i + 1)).getLsbD 7 = true ∧ (field c.pmpcfg0 (i + 1)).extractLsb' 3 2 = 1)
    let after (w : Word) : Prop := ∀ i, i < 4 →
      (held i → field w i = field c.pmpcfg0 i) ∧ (¬held i → field w i = field v i &&& 0x9F)
    let reserved (w : Word) : Prop := ∃ i, i < 4 ∧ (field w i).getLsbD 0 = false ∧ (field w i).getLsbD 1 = true
    Completes (.csrrs rd 0x3A0 0) s rd c.pmpcfg0 (s.pc + 4) ∧
    (∀ w, after w → ¬reserved w → LeavesCsrs (.csrrw 0 0x3A0 rs1) s { c with pmpcfg0 := w }) ∧
    (∀ w, after w → reserved w → exec (.csrrw 0 0x3A0 rs1) s = .refused (.reservedValue 0x3A0)) ∧
    (∀ i : Fin 4,
      ReadsPartly (.csrrs rd (BitVec.ofNat 12 (0x3B0 + i.val)) 0) s rd (fun w => w.extractLsb' 0 30 = c.pmpaddr[i]) ∧
      (fixed i.val → LeavesCsrs (.csrrw 0 (BitVec.ofNat 12 (0x3B0 + i.val)) rs1) s c) ∧
      (¬fixed i.val → LeavesCsrs (.csrrw 0 (BitVec.ofNat 12 (0x3B0 + i.val)) rs1) s
        { c with pmpaddr := c.pmpaddr.set i.val (v.extractLsb' 0 30) }))

/-- In debug mode dcsr, dpc, dscratch0 and dscratch1 read as they are held, and a write stores dcsr's writable fields (a
prv that is no mode is outside the spec), or the whole of the others. With machine privilege on V3B and V3C tselect
reads and stores its two bits; tdata1 and tdata2 read as those of the selected channel, and a write in debug mode
stores tdata2, and the writable fields of tdata1 beside its fixed ones; outside debug mode, and for a channel that
does not exist, a write changes nothing. No other CSR, no register but rd, no memory byte and nothing else changes
but the pc. That a channel which does not exist reads as a free value and ignores writes (log entry 26), and that
what is written to the read-only fields TYPE and cause is ignored (log entry 14), are the model's choices. -/
def Obligations.TriggerAndDebugRegisters : Prop :=
  ∀ (s : State) (rd rs1 : Reg),
    let v := s.readReg rs1
    let c := s.csr
    let there := c.tselect.toNat < s.cfg.triggerChannels
    (s.dbg ≠ .running →
      (∀ e ∈ [(0x7B0, c.dcsr), (0x7B1, c.dpc), (0x7B2, c.dscratch0), (0x7B3, c.dscratch1)],
        Completes (.csrrs rd e.1 0) s rd e.2 (s.pc + 4)) ∧
      (v.extractLsb' 0 2 = 0 ∨ v.extractLsb' 0 2 = 3 → LeavesCsrs (.csrrw 0 0x7B0 rs1) s
        { c with dcsr := (c.dcsr &&& 0xFFFF65F8) ||| (v &&& 0x9A07) }) ∧
      LeavesCsrs (.csrrw 0 0x7B1 rs1) s { c with dpc := v } ∧
      LeavesCsrs (.csrrw 0 0x7B2 rs1) s { c with dscratch0 := v } ∧
      LeavesCsrs (.csrrw 0 0x7B3 rs1) s { c with dscratch1 := v }) ∧
    (s.cfg.model ≠ .v3a → s.effPriv = .machine →
      Completes (.csrrs rd 0x7A0 0) s rd (c.tselect.zeroExtend 32) (s.pc + 4) ∧
      LeavesCsrs (.csrrw 0 0x7A0 rs1) s { c with tselect := v.extractLsb' 0 2 } ∧
      (there → Completes (.csrrs rd 0x7A1 0) s rd c.tdata1[c.tselect.toNat] (s.pc + 4) ∧
        Completes (.csrrs rd 0x7A2 0) s rd c.tdata2[c.tselect.toNat] (s.pc + 4)) ∧
      (¬there → ∀ a ∈ [(0x7A1 : BitVec 12), 0x7A2], ReadsPartly (.csrrs rd a 0) s rd (fun _ => True)) ∧
      (there → s.dbg ≠ .running →
        LeavesCsrs (.csrrw 0 0x7A1 rs1) s
          { c with tdata1 := c.tdata1.set c.tselect.toNat (0x2BE00000 ||| (v &&& 0x10CF)) } ∧
        LeavesCsrs (.csrrw 0 0x7A2 rs1) s { c with tdata2 := c.tdata2.set c.tselect.toNat v }) ∧
      (s.dbg = .running ∨ ¬there → LeavesCsrs (.csrrw 0 0x7A1 rs1) s c ∧ LeavesCsrs (.csrrw 0 0x7A2 rs1) s c))

/-- Outside debug mode, where a trap can be entered: a CSR instruction that may not make its access (no such register, a
debug register, a machine register from user mode, a locked intsyscr from user mode, a write of a read-only
register, where csrrw and csrrwi always write and the others when their source field is not zero), and mret in user
mode, take IllegalInstruction with the instruction word in mtval, and change nothing else. -/
def Obligations.ForbiddenCsrAccessesTrap : Prop :=
  ∀ (s : State) (rd rs1 : Reg) (a : BitVec 12) (u : BitVec 5), s.dbg = .running →
    (∀ i ∈ [Instr.csrrw rd a rs1, .csrrwi rd a u], CsrForbidden s a true →
      Traps i s (.illegalInstruction (encode i).bits)) ∧
    (∀ i ∈ [Instr.csrrs rd a rs1, .csrrc rd a rs1], CsrForbidden s a (decide (rs1 ≠ 0)) →
      Traps i s (.illegalInstruction (encode i).bits)) ∧
    (∀ i ∈ [Instr.csrrsi rd a u, .csrrci rd a u], CsrForbidden s a (decide (u ≠ 0)) →
      Traps i s (.illegalInstruction (encode i).bits)) ∧
    (s.priv = .user → Traps .mret s (.illegalInstruction 0x30200073))

/-- On V3A, lr.w at an address that passes the checks and reaches memory writes the word to rd and holds a reservation
of that address, whatever was reserved before; nothing else changes but the pc. On V3A, at an aligned address: with
a reservation of exactly that address whose validity is certain, and an access that passes the checks and reaches
memory, sc.w stores rs2 there and writes 0 to rd; with one whose validity the spec does not define it does that, or
writes 1 to rd and stores nothing; with no reservation, or one of another address, it writes 1 to rd and stores
nothing. In every case no reservation is left and nothing else changes but the pc. Stated for memory in its
canonical form. That an sc.w that fails its reservation test makes no check but that of alignment, so that it
completes at any aligned address, is the model's choice (log entry 9): the spec is silent. -/
def Obligations.LoadReservedStoreConditional : Prop :=
  (∀ (s : State) (aq rl : Bool) (rd rs1 : Reg), s.cfg.model = .v3a →
     let a := s.readReg rs1
     ReachesMemory s .load .word a →
     ∃ t, exec (.lrW aq rl rd rs1) s = .next t ∧ WritesReg s t rd (wordAt s a) ∧ t.pc = s.pc + 4 ∧
       t.resv = some ⟨a, true⟩ ∧ SameMemory s t ∧ t = { s with regs := t.regs, pc := t.pc, resv := t.resv }) ∧
  (∀ (s : State) (aq rl : Bool) (rd rs1 rs2 : Reg), s.cfg.model = .v3a → MemoryCanonical s →
     let a := s.readReg rs1
     (s.resv = some ⟨a, true⟩ → ReachesMemory s .store .word a →
       ∃ t, exec (.scW aq rl rd rs2 rs1) s = .next t ∧ WritesReg s t rd 0 ∧
         WritesBytes s t a (bytesOfWord (s.readReg rs2)) ∧ t.pc = s.pc + 4 ∧ t.resv = none ∧
         t = { s with regs := t.regs, pc := t.pc, mem := t.mem, stale := t.stale, resv := none }) ∧
     (a.toNat % 4 = 0 → (∀ r, s.resv = some r → r.addr ≠ a) →
       ∃ t, exec (.scW aq rl rd rs2 rs1) s = .next t ∧ WritesReg s t rd 1 ∧ SameMemory s t ∧ t.pc = s.pc + 4 ∧
         t = { s with regs := t.regs, pc := t.pc, resv := none }) ∧
     (s.resv = some ⟨a, false⟩ → ReachesMemory s .store .word a →
       ∃ t, exec (.scW aq rl rd rs2 rs1) s = .next t ∧ t.pc = s.pc + 4 ∧ t.resv = none ∧
         ((WritesReg s t rd 0 ∧ WritesBytes s t a (bytesOfWord (s.readReg rs2))) ∨
           (WritesReg s t rd 1 ∧ SameMemory s t)) ∧
         t = { s with
           regs := t.regs
           pc := t.pc
           mem := t.mem
           stale := t.stale
           resv := none
           freeIndex := t.freeIndex }))

/-- On V3A, each AMO at an address that passes the checks and reaches memory writes the old word to rd and stores the
combination of the old word and rs2 (swap, sum, exclusive or, and, or, signed and unsigned minimum and maximum),
both computed from the registers before rd is written; every byte outside the word reads as before and a reservation
of another word is kept, and nothing else changes but the pc, a reservation of the word itself and what a fetch may
still see. Stated for memory in its canonical form. -/
def Obligations.AtomicUpdates : Prop :=
  ∀ (s : State) (aq rl : Bool) (rd rs1 rs2 : Reg), s.cfg.model = .v3a → MemoryCanonical s →
    let a := s.readReg rs1
    let t := wordAt s a
    let v := s.readReg rs2
    ReachesMemory s .amo .word a →
    Updates (.amoswapW aq rl rd rs2 rs1) s rd a v ∧
    Updates (.amoaddW aq rl rd rs2 rs1) s rd a (t + v) ∧
    Updates (.amoxorW aq rl rd rs2 rs1) s rd a (t ^^^ v) ∧
    Updates (.amoandW aq rl rd rs2 rs1) s rd a (t &&& v) ∧
    Updates (.amoorW aq rl rd rs2 rs1) s rd a (t ||| v) ∧
    Updates (.amominW aq rl rd rs2 rs1) s rd a (BitVec.ofInt 32 (Min.min t.toInt v.toInt)) ∧
    Updates (.amomaxW aq rl rd rs2 rs1) s rd a (BitVec.ofInt 32 (Max.max t.toInt v.toInt)) ∧
    Updates (.amominuW aq rl rd rs2 rs1) s rd a (BitVec.ofNat 32 (Min.min t.toNat v.toNat)) ∧
    Updates (.amomaxuW aq rl rd rs2 rs1) s rd a (BitVec.ofNat 32 (Max.max t.toNat v.toNat))

/-- Outside debug mode, where a trap can be entered: on V3B and V3C every instruction of the A extension, and on V3A or
without the sub-extension every instruction of Zba, Zbb, Zbc and Zbs, takes IllegalInstruction with its own word in
mtval; no register, no memory byte and nothing else changes. -/
def Obligations.AbsentExtensionsTrap : Prop :=
  ∀ (s : State) (aq rl : Bool) (rd rs1 rs2 : Reg) (k : BitVec 5), s.dbg = .running →
    (s.cfg.model ≠ .v3a →
      ∀ i ∈ [Instr.lrW aq rl rd rs1, .scW aq rl rd rs2 rs1, .amoswapW aq rl rd rs2 rs1,
          .amoaddW aq rl rd rs2 rs1, .amoxorW aq rl rd rs2 rs1, .amoandW aq rl rd rs2 rs1,
          .amoorW aq rl rd rs2 rs1, .amominW aq rl rd rs2 rs1, .amomaxW aq rl rd rs2 rs1,
          .amominuW aq rl rd rs2 rs1, .amomaxuW aq rl rd rs2 rs1],
        Traps i s (.illegalInstruction (encode i).bits)) ∧
    (s.cfg.model = .v3a ∨ s.cfg.zba = false →
      ∀ i ∈ [Instr.sh1add rd rs1 rs2, .sh2add rd rs1 rs2, .sh3add rd rs1 rs2],
        Traps i s (.illegalInstruction (encode i).bits)) ∧
    (s.cfg.model = .v3a ∨ s.cfg.zbb = false →
      ∀ i ∈ [Instr.andn rd rs1 rs2, .orn rd rs1 rs2, .xnor rd rs1 rs2, .clz rd rs1, .ctz rd rs1,
          .cpop rd rs1, .max rd rs1 rs2, .maxu rd rs1 rs2, .min rd rs1 rs2, .minu rd rs1 rs2, .sextB rd rs1,
          .sextH rd rs1, .zextH rd rs1, .rol rd rs1 rs2, .ror rd rs1 rs2, .rori rd rs1 k, .orcB rd rs1,
          .rev8 rd rs1],
        Traps i s (.illegalInstruction (encode i).bits)) ∧
    (s.cfg.model = .v3a ∨ s.cfg.zbc = false →
      ∀ i ∈ [Instr.clmul rd rs1 rs2, .clmulh rd rs1 rs2, .clmulr rd rs1 rs2],
        Traps i s (.illegalInstruction (encode i).bits)) ∧
    (s.cfg.model = .v3a ∨ s.cfg.zbs = false →
      ∀ i ∈ [Instr.bclr rd rs1 rs2, .bclri rd rs1 k, .bext rd rs1 rs2, .bexti rd rs1 k, .binv rd rs1 rs2,
          .binvi rd rs1 k, .bset rd rs1 rs2, .bseti rd rs1 k],
        Traps i s (.illegalInstruction (encode i).bits))

/-- With Zba on V3B or V3C, sh1add, sh2add and sh3add write rs2 plus twice, four times or eight times rs1 modulo 2^32;
nothing else changes but the pc. With Zbc on V3B or V3C, bit j of clmul is bit j, of clmulh bit j + 32 and of clmulr
bit j + 31 of the 64-bit carry-less product, whose bit n is the exclusive or over k of bit k of rs2 and bit n - k of
rs1; nothing else changes but the pc. -/
def Obligations.AddressSumsAndCarrylessProducts : Prop :=
  (∀ (s : State) (rd rs1 rs2 : Reg), s.cfg.model ≠ .v3a → s.cfg.zba = true →
     Completes (.sh1add rd rs1 rs2) s rd (s.readReg rs2 + 2 * s.readReg rs1) (s.pc + 4) ∧
     Completes (.sh2add rd rs1 rs2) s rd (s.readReg rs2 + 4 * s.readReg rs1) (s.pc + 4) ∧
     Completes (.sh3add rd rs1 rs2) s rd (s.readReg rs2 + 8 * s.readReg rs1) (s.pc + 4)) ∧
  (∀ (s : State) (rd rs1 rs2 : Reg), s.cfg.model ≠ .v3a → s.cfg.zbc = true →
     let a := s.readReg rs1
     let b := s.readReg rs2
     (∃ v : Word, Completes (.clmul rd rs1 rs2) s rd v (s.pc + 4) ∧
       ∀ j, j < 32 → v.getLsbD j = clmulBit a b j) ∧
     (∃ v : Word, Completes (.clmulh rd rs1 rs2) s rd v (s.pc + 4) ∧
       ∀ j, j < 32 → v.getLsbD j = clmulBit a b (j + 32)) ∧
     (∃ v : Word, Completes (.clmulr rd rs1 rs2) s rd v (s.pc + 4) ∧
       ∀ j, j < 32 → v.getLsbD j = clmulBit a b (j + 31)))

/-- With Zbb on V3B or V3C, bit j of the result of andn, orn and xnor is the and, or or equality of bit j of rs1 with
the inverse (or equality) of bit j of rs2; max and min write the larger and smaller operand as signed numbers, maxu
and minu as unsigned ones; nothing else changes but the pc. With Zbb on V3B or V3C, clz writes the number of 0 bits
above the highest 1 bit, ctz the number below the lowest 1 bit, each 32 for the value 0, and cpop the number of 1
bits; nothing else changes but the pc. -/
def Obligations.LogicExtremesAndCounts : Prop :=
  (∀ (s : State) (rd rs1 rs2 : Reg), s.cfg.model ≠ .v3a → s.cfg.zbb = true →
     let a := s.readReg rs1
     let b := s.readReg rs2
     (∃ v : Word, Completes (.andn rd rs1 rs2) s rd v (s.pc + 4) ∧
       ∀ j, j < 32 → v.getLsbD j = (a.getLsbD j && !b.getLsbD j)) ∧
     (∃ v : Word, Completes (.orn rd rs1 rs2) s rd v (s.pc + 4) ∧
       ∀ j, j < 32 → v.getLsbD j = (a.getLsbD j || !b.getLsbD j)) ∧
     (∃ v : Word, Completes (.xnor rd rs1 rs2) s rd v (s.pc + 4) ∧
       ∀ j, j < 32 → v.getLsbD j = (a.getLsbD j == b.getLsbD j)) ∧
     Completes (.max rd rs1 rs2) s rd (BitVec.ofInt 32 (Max.max a.toInt b.toInt)) (s.pc + 4) ∧
     Completes (.maxu rd rs1 rs2) s rd (BitVec.ofNat 32 (Max.max a.toNat b.toNat)) (s.pc + 4) ∧
     Completes (.min rd rs1 rs2) s rd (BitVec.ofInt 32 (Min.min a.toInt b.toInt)) (s.pc + 4) ∧
     Completes (.minu rd rs1 rs2) s rd (BitVec.ofNat 32 (Min.min a.toNat b.toNat)) (s.pc + 4)) ∧
  (∀ (s : State) (rd rs1 : Reg), s.cfg.model ≠ .v3a → s.cfg.zbb = true →
     let a := s.readReg rs1
     (∃ n, n ≤ 32 ∧ Completes (.clz rd rs1) s rd (BitVec.ofNat 32 n) (s.pc + 4) ∧
       (∀ j, j < n → a.getLsbD (31 - j) = false) ∧ (n < 32 → a.getLsbD (31 - n) = true)) ∧
     (∃ n, n ≤ 32 ∧ Completes (.ctz rd rs1) s rd (BitVec.ofNat 32 n) (s.pc + 4) ∧
       (∀ j, j < n → a.getLsbD j = false) ∧ (n < 32 → a.getLsbD n = true)) ∧
     Completes (.cpop rd rs1) s rd (BitVec.ofNat 32 ((List.range 32).filter fun j => a.getLsbD j).length) (s.pc + 4))

/-- With Zbb on V3B or V3C, sext.b, sext.h and zext.h extend the low byte or halfword; bit j of rol is bit j - k of rs1
and bit j of ror and rori is bit j + k, the index modulo 32, k being the low 5 bits of rs2 or the shift amount; each
byte of orc.b is 0xFF exactly where the byte of rs1 is not zero; rev8 reverses the order of the bytes. Nothing else
changes but the pc. -/
def Obligations.ExtensionsRotationsBytes : Prop :=
  ∀ (s : State) (rd rs1 rs2 : Reg) (k : BitVec 5), s.cfg.model ≠ .v3a → s.cfg.zbb = true →
    let a := s.readReg rs1
    let n := (s.readReg rs2).toNat % 32
    Completes (.sextB rd rs1) s rd (BitVec.ofInt 32 (a.extractLsb' 0 8).toInt) (s.pc + 4) ∧
    Completes (.sextH rd rs1) s rd (BitVec.ofInt 32 (a.extractLsb' 0 16).toInt) (s.pc + 4) ∧
    Completes (.zextH rd rs1) s rd (BitVec.ofNat 32 (a.toNat % 2 ^ 16)) (s.pc + 4) ∧
    (∃ v : Word, Completes (.rol rd rs1 rs2) s rd v (s.pc + 4) ∧
      ∀ j, j < 32 → v.getLsbD j = a.getLsbD ((j + 32 - n) % 32)) ∧
    (∃ v : Word, Completes (.ror rd rs1 rs2) s rd v (s.pc + 4) ∧
      ∀ j, j < 32 → v.getLsbD j = a.getLsbD ((j + n) % 32)) ∧
    (∃ v : Word, Completes (.rori rd rs1 k) s rd v (s.pc + 4) ∧
      ∀ j, j < 32 → v.getLsbD j = a.getLsbD ((j + k.toNat) % 32)) ∧
    (∃ v : Word, Completes (.orcB rd rs1) s rd v (s.pc + 4) ∧
      ∀ j, j < 32 → v.getLsbD j = (a.extractLsb' (8 * (j / 8)) 8 != 0)) ∧
    (∃ v : Word, Completes (.rev8 rd rs1) s rd v (s.pc + 4) ∧
      ∀ j, j < 32 → v.getLsbD j = a.getLsbD (8 * (3 - j / 8) + j % 8))

/-- With Zbs on V3B or V3C, bclr, binv and bset give rs1 with the bit at the index cleared, inverted or set and every
other bit kept, and bext gives that bit as 0 or 1, the index being the low 5 bits of rs2, or the shift amount for
the immediate forms; nothing else changes but the pc. -/
def Obligations.SingleBits : Prop :=
  ∀ (s : State) (rd rs1 rs2 : Reg) (k : BitVec 5), s.cfg.model ≠ .v3a → s.cfg.zbs = true →
    let a := s.readReg rs1
    let n := (s.readReg rs2).toNat % 32
    let bits (i : Instr) (f : Nat → Bool) :=
      ∃ v : Word, Completes i s rd v (s.pc + 4) ∧ ∀ j, j < 32 → v.getLsbD j = f j
    bits (.bclr rd rs1 rs2) (fun j => a.getLsbD j && decide (j ≠ n)) ∧
    bits (.bclri rd rs1 k) (fun j => a.getLsbD j && decide (j ≠ k.toNat)) ∧
    bits (.binv rd rs1 rs2) (fun j => a.getLsbD j ^^ decide (j = n)) ∧
    bits (.binvi rd rs1 k) (fun j => a.getLsbD j ^^ decide (j = k.toNat)) ∧
    bits (.bset rd rs1 rs2) (fun j => a.getLsbD j || decide (j = n)) ∧
    bits (.bseti rd rs1 k) (fun j => a.getLsbD j || decide (j = k.toNat)) ∧
    bits (.bext rd rs1 rs2) (fun j => decide (j = 0) && a.getLsbD n) ∧
    bits (.bexti rd rs1 k) (fun j => decide (j = 0) && a.getLsbD k.toNat)

/-- For every synchronous exception, and for every interrupt without a VTF channel, where the trap can be entered: mepc
receives the pc (the faulting instruction, or the next one not yet executed), mcause the code, with bit 31 for an
interrupt, mtval the value, MPIE the old MIE, MPP the old mode, MIE is kept only below the last nesting level (the
reading of D13; log entry 34), the mode becomes machine mode from either mode, the slot becomes active and is no
longer pending, NEST_OV is set by an entry at level 2 or more on V3B and V3C, and the pc goes to the base, to base +
4 * slot, or with MODE1 to the word that memory holds there. No register, no memory byte and no other CSR than these
changes. -/
def Obligations.TrapEntrySequence : Prop :=
  ∀ s : State,
    (∀ (e : Exc) (entry : Word), CanTrap s (excSlot s.cfg.model e) entry → ∃ t, s.takeException e = .next t ∧
      TrapEntered s t (excCode e) (excTval e) (excSlot s.cfg.model e) entry) ∧
    (∀ (n : Nat) (entry : Word), n < 256 → (∀ k, s.vtfFor n k = false) → CanTrap s n entry →
      ∃ t, s.takeInterrupt n = .next t ∧ TrapEntered s t (0x80000000 + BitVec.ofNat 32 n) 0 n entry)

/-- On V3B and V3C outside debug mode, when a trigger channel enabled for the execution of instructions in the current
mode matches the pc, and each lower channel is not so enabled or does not match, the step takes the breakpoint
exception with mepc and mtval the pc (ACTION = 0), or enters debug mode with cause 2 (ACTION = 1, dpc free), and the
instruction is not executed. On V3C the same holds for a channel enabled for loads, or for stores, that matches the
address of a load or a store: no part of the access is made. On V3A no trigger ever matches, and on V3B none matches
a data address. That of several matching channels the lowest one's ACTION decides is the model's choice (log entry
26): the spec gives no order. -/
def Obligations.HardwareTriggers : Prop :=
  ∀ (s : State) (rd rs1 rs2 : Reg) (d e : CReg) (imm : BitVec 12) (u : BitVec 7) (v : BitVec 8) (ch : Fin 4),
    s.dbg = .running →
    let action := s.csr.tdata1[ch].getLsbD 12
    let a := s.readReg rs1 + BitVec.ofInt 32 imm.toInt
    let c := s.readReg (wideReg e) + BitVec.ofNat 32 u.toNat
    let p := s.readReg 2 + BitVec.ofNat 32 v.toNat
    let hits (i : Instr) := (action = false → Traps i s (.breakpoint s.pc)) ∧
      (action = true → ∃ t, exec i s = .next t ∧ EntersDebugByTrigger s t)
    (Quiet s → ChannelMatches s ch 2 s.pc →
      (action = false → StepTraps s 3 s.pc (if s.cfg.model = .v3a then 3 else 9)) ∧
      (action = true → ∃ t, step s = .next t ∧ EntersDebugByTrigger s t)) ∧
    (s.cfg.model = .v3c → ChannelMatches s ch 0 a →
      ∀ i ∈ [Instr.lb rd rs1 imm, .lbu rd rs1 imm, .lh rd rs1 imm, .lhu rd rs1 imm, .lw rd rs1 imm], hits i) ∧
    (s.cfg.model = .v3c → ChannelMatches s ch 0 c → hits (.cLw d e u)) ∧
    (s.cfg.model = .v3c → ChannelMatches s ch 0 p → hits (.cLwsp rd v)) ∧
    (s.cfg.model = .v3c → ChannelMatches s ch 1 a →
      ∀ i ∈ [Instr.sb rs2 rs1 imm, .sh rs2 rs1 imm, .sw rs2 rs1 imm], hits i) ∧
    (s.cfg.model = .v3c → ChannelMatches s ch 1 c → hits (.cSw d e u)) ∧
    (s.cfg.model = .v3c → ChannelMatches s ch 1 p → hits (.cSwsp rs2 v)) ∧
    (s.cfg.model = .v3a → ∀ k y, s.firedTrigger k y = none) ∧
    (s.cfg.model = .v3b → ∀ y, s.firedTrigger .load y = none ∧ s.firedTrigger .store y = none)

/-- Whatever the state and its mode, when a trap for an exception or for an interrupt is entered the mode after it is
machine mode. -/
def Obligations.EveryTrapEntersMachineMode : Prop :=
  ∀ (s t : State), ((∃ e : Exc, s.takeException e = .next t) ∨ ∃ n : Nat, s.takeInterrupt n = .next t) →
    t.priv = .machine

/-- The address a slot names is the base (mtvec with its low ten bits cleared), plus 4 * slot when MODE0 is set. With
MODE1 clear, and on V3A, a trap enters there; with MODE1 set on V3B and V3C it enters at the word that memory holds
there, bit 0 cleared, and where nothing backs that word the run ends with the fault of the table read. This holds
for every exception, whose slot is 3, or on V3B and V3C 5, 8 and 9 for ecall from machine and user mode and
breakpoint, and for every interrupt without a VTF channel, whose slot is its number. An interrupt for which a VTF
channel is configured enters at the lowest such channel's address instead: on V3B and V3C the channel register with
bit 0 cleared, on V3A the high four bits of VTFBADDRR over the low twenty bits of the channel register (bit 0
ignored, D3). Stated where no locked PMP region denies the read of the table (log entry 35). -/
def Obligations.VectoredEntries : Prop :=
  ∀ (s : State) (n : Nat) (e : Exc), s.level < 4 → n < 256 →
    let a (slot : Nat) :=
      (s.csr.mtvec &&& 0xFFFFFC00) + (if s.csr.mtvec.getLsbD 0 then BitVec.ofNat 32 (4 * slot) else 0)
    let slot := if s.cfg.model = .v3a then 3 else
      (match e with
      | .ecallFromM => 5
      | .ecallFromU => 8
      | .breakpoint _ => 9
      | _ => 3)
    let goes (o : Outcome) (k : Nat) :=
      (s.cfg.model = .v3a ∨ s.csr.mtvec.getLsbD 1 = false → ∃ t, o = .next t ∧ t.pc = a k) ∧
      (s.cfg.model ≠ .v3a → s.csr.mtvec.getLsbD 1 = true → s.target (a k) = .memory →
        (s.cfg.model = .v3c → pmpCheck s.csr .machine .load (a k).toNat = true) →
        ∃ t, o = .next t ∧ t.pc = wordAt s (a k) &&& 0xFFFFFFFE) ∧
      (s.cfg.model ≠ .v3a → s.csr.mtvec.getLsbD 1 = true → s.target (a k) ≠ .memory → s.target (a k) ≠ .chipDevice →
        o = .fault (.vectorRead (a k)))
    goes (s.takeException e) slot ∧
    ((∀ k, s.vtfFor n k = false) → goes (s.takeInterrupt n) n) ∧
    (∀ (k : Fin 4), s.cfg.model ≠ .v3a → s.pfic.vtfaddrr[k].getLsbD 0 = true →
      (s.pfic.vtfidr.extractLsb' (8 * k.val) 8).toNat = n →
      (∀ j : Fin 4, j < k → s.pfic.vtfaddrr[j].getLsbD 0 = false ∨
        (s.pfic.vtfidr.extractLsb' (8 * j.val) 8).toNat ≠ n) →
      ∃ t, s.takeInterrupt n = .next t ∧ t.pc = s.pfic.vtfaddrr[k] &&& 0xFFFFFFFE) ∧
    (∀ (k : Fin 4), s.cfg.model = .v3a → n ≠ 0 → (s.pfic.vtfaddrr[k].extractLsb' 24 8).toNat = n →
      (∀ j : Fin 4, j < k → (s.pfic.vtfaddrr[j].extractLsb' 24 8).toNat ≠ n) →
      ∃ t, s.takeInterrupt n = .next t ∧
        t.pc = ((s.pfic.vtfbaddrr &&& 0xF0000000) ||| (s.pfic.vtfaddrr[k] &&& 0x000FFFFF)) &&& 0xFFFFFFFE)

/-- When an interrupt is accepted at the boundary of a running core, awake or asleep, with no input and no halt request,
the step takes its trap with the pc as it stands, whatever stands in memory there; a sleeping core wakes. That
waking takes no step of its own, so that a sleeping core enters the trap in this same step, is the model's choice
(log entry 19). With dcsr.step set the step ends there, in debug mode: that with stepie set the entry of a ready
interrupt is the whole single step is the model's choice (log entry 25), for R574 speaks only of a stepped
instruction that traps. -/
def Obligations.InterruptAtBoundary : Prop :=
  ∀ (s : State) (n : Nat), s.dbg = .running → s.inputs = [] → s.dm.haltreq = false →
    s.sampledInterrupt = some n →
    step s = mapNext State.endStep (({ s with sleep := .awake } : State).takeInterrupt n)

/-- With the hardware stack enabled and at most one handler running, let a trap be taken, for an exception or for an
interrupt, let the handler change any general registers, and let it execute mret: x1, x5 to x7, x10 to x17 and x28
to x31 read as they did before the trap, every other register as the handler left it, the pc is the pc of the trap
(bit 0 cleared), the mode and MIE are those before it, the handlers are those before it, and no memory byte has
changed. With one or two handlers running mret ends the innermost one whatever its frame is, and changes no register
but those 16 (none with GIHWSTKNEN set) and no memory byte; where it switches the stack on by clearing GIHWSTKNEN,
the handlers that go on are left unbalanced, as a write of intsyscr leaves them. What the 16 registers hold after
the return from an unbalanced handler is not said: R446 leaves it unspecified. That R441 decides where GIHWSTKNEN is
set is the model's choice (log entry 16). -/
def Obligations.HardwareStackRoundTrip : Prop :=
  (∀ (s t : State) (regs : Vector Word 32), s.level ≤ 1 → s.hpeEnabled = true →
    ((∃ e : Exc, s.takeException e = .next t) ∨ ∃ n : Nat, s.takeInterrupt n = .next t) →
    ∃ u, exec .mret { t with regs := regs } = .next u ∧
      (∀ r ∈ hpeRegs, u.readReg r = s.readReg r) ∧
      (∀ r, r ∉ hpeRegs → u.readReg r = ({ t with regs := regs } : State).readReg r) ∧
      u.pc = s.pc &&& 0xFFFFFFFE ∧ u.priv = s.priv ∧ mstatusMie u.csr.mstatus = mstatusMie s.csr.mstatus ∧
      u.handlers = s.handlers ∧ SameMemory s u) ∧
  (∀ (s : State) (slot : Nat) (rest : List Nat), s.effPriv = .machine → s.handlers = slot :: rest → rest.length ≤ 1 →
    ∃ t, exec .mret s = .next t ∧ Returned s t ∧ t.handlers = rest ∧
      (∀ r, r ∉ hpeRegs → t.readReg r = s.readReg r) ∧ (s.gihwstknen = true → SameRegs s t) ∧ SameMemory s t ∧
      ∀ k : Fin 2, k.val < rest.length →
        t.hpe[k] = if t.hpeEnabled ≠ s.hpeEnabled then .unbalanced else s.hpe[k])

/-- The candidate the controller offers among the programmable numbers is pending, enabled and below the threshold, no
other such number has a smaller priority byte, and none with the same byte has a smaller number; if it offers none,
there is none. A pending NMI that is not the innermost running handler is accepted whatever MIE is. While MIE is
clear or GIHWSTKNEN is set nothing else is accepted. A number other than NMI is accepted only as the candidate the
controller offers, and while a handler runs only with nesting enabled, below the last level, over the handler of a
programmable number with a strictly smaller preemption field. Conversely, with MIE set, GIHWSTKNEN clear and NMI not
accepted, the candidate the controller offers is accepted when no handler runs or it preempts the innermost one in
that way. That NMI is held back only while its own handler is the innermost one, so that it is accepted over an
exception handler inside it, is the model's reading (log entry 24, DEDUCED). That a pending call slot, which is not
delivered (R492), keeps back no programmable number is its choice (log entry 22). -/
def Obligations.ArbitrationAndAcceptance : Prop :=
  (∀ s : State,
     let candidate (n : Nat) := n < 256 ∧ s.pending.getLsbD n = true ∧ s.pfic.en.getLsbD n = true ∧
       (programmable s.cfg).getLsbD n = true ∧
       (s.pfic.ithresdr = 0 ∨ (s.prioOf n).toNat < s.pfic.ithresdr.toNat)
     (∀ n, s.bestOf s.requested none allNumbers = some n → candidate n ∧
       ∀ m, candidate m → (s.prioOf n).toNat < (s.prioOf m).toNat ∨ (s.prioOf n = s.prioOf m ∧ n ≤ m)) ∧
     (s.bestOf s.requested none allNumbers = none → ∀ n, ¬candidate n)) ∧
  (∀ s : State,
     let nmi := s.pending.getLsbD 2 = true ∧ s.handlers.head? ≠ some 2
     let on := mstatusMie s.csr.mstatus = true ∧ (s.cfg.model = .v3a ∨ s.csr.intsyscr.getLsbD 5 = false)
     let through (n : Nat) := ∀ m rest, s.handlers = m :: rest →
       s.nestingEnabled = true ∧ s.level < s.maxLevel ∧ 12 ≤ m ∧ s.preempt (s.prioOf n) < s.preempt (s.prioOf m)
     (nmi → s.acceptedInterrupt = some 2) ∧
     (∀ n, s.acceptedInterrupt = some n → n ≠ 2 →
       on ∧ s.bestOf s.requested none allNumbers = some n ∧ through n) ∧
     (∀ n, on → ¬nmi → s.bestOf s.requested none allNumbers = some n → through n → s.acceptedInterrupt = some n))

/-- A region that is OFF matches no address. A TOR region matches the addresses from its lower bound (pmpaddr of the
region before it times 4, or 0) up to, and not including, its own pmpaddr times 4. An NA4 region matches the 4 bytes
at its pmpaddr times 4. A NAPOT region whose pmpaddr ends in exactly k 1 bits matches the 2^(k+3) naturally aligned
bytes that the bits above them name. -/
def Obligations.PmpRegionMatching : Prop :=
  ∀ (c : Csrs) (i : Fin 4) (a : Nat), a < 2 ^ 32 →
    let field (j : Nat) := (c.pmpaddr[j]?.getD 0).toNat
    let mode := (c.pmpcfg0.extractLsb' (8 * i.val + 3) 2).toNat
    (mode = 0 → pmpMatches c i.val a = false) ∧
    (mode = 1 → (pmpMatches c i.val a = true ↔
      (if i.val = 0 then 0 else field (i.val - 1) * 4) ≤ a ∧ a < field i.val * 4)) ∧
    (mode = 2 → (pmpMatches c i.val a = true ↔ field i.val * 4 ≤ a ∧ a < field i.val * 4 + 4)) ∧
    (∀ k, mode = 3 → field i.val % 2 ^ (k + 1) = 2 ^ k - 1 →
      (pmpMatches c i.val a = true ↔
        field i.val / 2 ^ (k + 1) * 2 ^ (k + 3) ≤ a ∧
          a < field i.val / 2 ^ (k + 1) * 2 ^ (k + 3) + 2 ^ (k + 3)))

/-- Only V3C has a PMP: elsewhere every access is allowed. On V3C an access is checked in the current mode, or in
machine mode while the core is in debug mode. An address that no region matches is allowed in machine mode and
denied in user mode. Otherwise the lowest-numbered matching region alone decides: in machine mode an unlocked region
allows everything, and in every other case fetches need X, loads R, stores W, and read-modify-writes both R and W.
That the accesses of the program buffer are checked is the model's choice (log entry 28). -/
def Obligations.PmpCheckDecides : Prop :=
  (∀ (s : State) (k : Access) (a : Word),
    (s.cfg.model ≠ .v3c → s.pmpAllows k a = true) ∧
    (s.cfg.model = .v3c →
      s.pmpAllows k a = pmpCheck s.csr (if s.dbg = .running then s.priv else .machine) k a.toNat)) ∧
  ∀ (c : Csrs) (p : Priv) (k : Access) (a : Nat),
    ((∀ i, i < 4 → pmpMatches c i a = false) → pmpCheck c p k a = decide (p = .machine)) ∧
    (∀ i, i < 4 → pmpMatches c i a = true → (∀ j, j < i → pmpMatches c j a = false) →
      let b := c.pmpcfg0.extractLsb' (8 * i) 8
      (p = .machine → b.getLsbD 7 = false → pmpCheck c p k a = true) ∧
      (p = .user ∨ b.getLsbD 7 = true → pmpCheck c p k a =
        (match k with
        | .fetch => b.getLsbD 2
        | .load => b.getLsbD 0
        | .store => b.getLsbD 1
        | .amo => b.getLsbD 0 && b.getLsbD 1)))

/-- A word store to PFIC_IENR x sets the enable bits of the programmable numbers whose bits are 1, to PFIC_IRER x clears
them, to PFIC_IPRR x clears pending bits, and a 0 bit does nothing; a store to PFIC_IPSR x sets the pending bits of
the numbers the model has, an event with SEVONPEND if one of them was not pending, and is refused where it sets the
bit of the exception slot (D41). Nothing else changes but the pc and a reservation of the stored word. That a
software request is an event with SEVONPEND (log entry 18, DESIGN CHOICE) and that the bits of external numbers
without a source stay as they are (log entry 23, DEDUCED; the spec leaves them unspecified) are the model's own, and
so is that V3A has no numbers 5, 8 and 9 here, so that their pending bits and priority bytes stay as they are (log
entry 23, DESIGN CHOICE). A byte, halfword or word store to PFIC_IPRIOR n writes the implemented bits (4 on V3A, 2
on V3B, 3 on V3C) of the one, two or four bytes from n on, of the numbers the model has, and no other number's byte;
a word store to PFIC_ITHRESDR writes its implemented bits (4 on V3A, 3 on V3B and V3C). Nothing else changes but the
pc and a reservation of the stored word. -/
def Obligations.PficStores : Prop :=
  (∀ (s : State) (rs1 rs2 : Reg) (imm : BitVec 12) (x : Fin 8),
     let a := s.readReg rs1 + BitVec.ofInt 32 imm.toInt
     let g := (s.readReg rs2).zeroExtend 256 <<< (32 * x.val)
     let i := Instr.sw rs2 rs1 imm
     let raised := g &&& (programmable s.cfg ||| fixedSlots s.cfg.model)
     StoreAllowed s a →
     (a.toNat = 0xE000E100 + 4 * x.val →
       LeavesPfic i s a { s.pfic with en := s.pfic.en ||| (g &&& programmable s.cfg) } s.eventLatch) ∧
     (a.toNat = 0xE000E180 + 4 * x.val → LeavesPfic i s a { s.pfic with en := s.pfic.en &&& ~~~g } s.eventLatch) ∧
     (a.toNat = 0xE000E280 + 4 * x.val → LeavesPfic i s a { s.pfic with pend := s.pfic.pend &&& ~~~g } s.eventLatch) ∧
     (a.toNat = 0xE000E200 + 4 * x.val → g.getLsbD 3 = false →
       LeavesPfic i s a { s.pfic with pend := s.pfic.pend ||| raised } (latchAfter s raised)) ∧
     (a.toNat = 0xE000E200 + 4 * x.val → g.getLsbD 3 = true → exec i s = .refused .softwareException)) ∧
  (∀ (s : State) (rs1 rs2 : Reg) (imm : BitVec 12),
     let a := s.readReg rs1 + BitVec.ofInt 32 imm.toInt
     let v := s.readReg rs2
     let leaves (i : Instr) (n count : Nat) := ∃ p : Vector Byte 256,
       LeavesPfic i s a { s.pfic with prio := p } s.eventLatch ∧
       ∀ m : Fin 256, p[m] =
         if n ≤ m.val ∧ m.val < n + count ∧ (programmable s.cfg ||| fixedSlots s.cfg.model).getLsbD m.val = true then
           v.extractLsb' (8 * (m.val - n)) 8 &&& (match s.cfg.model with | .v3a => 0xF0 | .v3b => 0xC0 | .v3c => 0xE0)
         else s.pfic.prio[m]
     StoreAllowed s a →
     (∀ n : Fin 256, a.toNat = 0xE000E400 + n.val → leaves (.sb rs2 rs1 imm) n.val 1 ∧
       (n.val % 2 = 0 → leaves (.sh rs2 rs1 imm) n.val 2) ∧ (n.val % 4 = 0 → leaves (.sw rs2 rs1 imm) n.val 4)) ∧
     (a.toNat = 0xE000E040 →
       LeavesPfic (.sw rs2 rs1 imm) s a { s.pfic with
         ithresdr := v.extractLsb' 0 8 &&& (match s.cfg.model with | .v3a => 0xF0 | .v3b => 0xE0 | .v3c => 0xE0) }
         s.eventLatch))

/-- A word load that the checks allow reads: from PFIC_ISR x the enable bits (the fixed slots' always set), from
PFIC_IPR x the pending bits (a timer or software request that is still asserted counts), from PFIC_IACTR x the
active bits, the bits of external numbers without a source being free; 0 from PFIC_IENR, IRER, IPSR and IPRR; from
ITHRESDR, SCTLR, the VTF registers and CFGR what they hold; from GISR, at level 2 or less, the state bits of the
model, whether something is pending, whether something is active, and the nesting code. A byte load from PFIC_IPRIOR
n reads the byte of a number that is not an external number without a source. A register of another model is absent:
its address faults as unmapped. Nothing changes but rd and the pc. That a request which is still asserted reads as
pending, and one withdrawn leaves the latched bit, is log entry 17. That external numbers without a source add
nothing to GISR is the model's choice (log entry 23). -/
def Obligations.PficLoads : Prop :=
  ∀ (s : State) (rd rs1 : Reg) (imm : BitVec 12),
    let a := s.readReg rs1 + BitVec.ofInt 32 imm.toInt
    let i := Instr.lw rd rs1 imm
    let holds (v : Word) := Completes i s rd v (s.pc + 4)
    let group (base : Nat) (f : Nat → Bool) := ∀ x : Fin 8, a.toNat = base + 4 * x.val →
      ReadsPartly i s rd fun v => ∀ j, j < 32 →
        (32 * x.val + j < 16 ∨ s.cfg.irqWired.getLsbD (32 * x.val + j) = true) → v.getLsbD j = f (32 * x.val + j)
    let later := decide (s.cfg.model ≠ .v3a)
    LoadAllowed s a →
    group 0xE000E000 (fun n => if n = 12 ∨ n = 14 ∨ 16 ≤ n then s.pfic.en.getLsbD n
      else decide (n ∈ [2, 3]) || (later && decide (n ∈ [5, 8, 9]))) ∧
    group 0xE000E020 (fun n => s.pfic.pend.getLsbD n ||
      (later && ((decide (n = 12) && s.stk.sr.getLsbD 0 && s.stk.ctlr.getLsbD 1) ||
        (decide (n = 14) && s.stk.sr.getLsbD 31)))) ∧
    group 0xE000E300 (fun n => s.pfic.act.getLsbD n) ∧
    (∀ x : Fin 8, a.toNat ∈ [0xE000E100 + 4 * x.val, 0xE000E180 + 4 * x.val, 0xE000E200 + 4 * x.val,
      0xE000E280 + 4 * x.val] → holds 0) ∧
    (a = 0xE000E040 → holds (s.pfic.ithresdr.zeroExtend 32)) ∧
    (a = 0xE000ED10 → holds s.pfic.sctlr) ∧
    (∀ k : Fin 4, a.toNat = 0xE000E060 + 4 * k.val → holds s.pfic.vtfaddrr[k]) ∧
    (a = 0xE000E044 → if s.cfg.model = .v3a then holds s.pfic.vtfbaddrr else exec i s = s.accessError (.loadAccess a)) ∧
    (a = 0xE000E048 → if s.cfg.model = .v3a then holds (s.pfic.cfgr.zeroExtend 32)
      else exec i s = s.accessError (.loadAccess a)) ∧
    (a = 0xE000E050 → if s.cfg.model = .v3a then exec i s = s.accessError (.loadAccess a) else holds s.pfic.vtfidr) ∧
    (a = 0xE000E04C → s.level ≤ 2 → ∃ v : Word, holds v ∧ v &&& 0xFFFFC400 = 0 ∧
      v.extractLsb' 0 8 = (if s.level = 0 then 0 else if s.level = 1 then 1 else 3) ∧
      v.getLsbD 8 = decide (s.pfic.act ≠ 0) ∧ v.getLsbD 9 = decide (s.pending ≠ 0) ∧
      v.getLsbD 11 = (later && mstatusMie s.csr.mstatus) ∧ v.getLsbD 12 = (later && decide (s.dbg ≠ .running)) ∧
      v.getLsbD 13 = (later && s.locked)) ∧
    (∀ n : Fin 256, a.toNat = 0xE000E400 + n.val → (n.val < 16 ∨ s.cfg.irqWired.getLsbD n.val = true) →
      Completes (.lbu rd rs1 imm) s rd (s.pfic.prio[n].zeroExtend 32) (s.pc + 4))

/-- A word store that the checks allow, on V3A to PFIC_CFGR: with KEY1 and PFICRESET clear it writes NESTCTRL and
HWSTKCTRL; with KEY2, PFICRESET and EXCSET clear and not both NMI bits set, it clears the pending bit of the
exception slot, clears or sets that of NMI, each where its bit is set, a newly pending NMI being an event with
SEVONPEND; PFICRESET with any of the three keys (and no SYSRESET under KEY3) returns every register of the
controller to its reset value; a word without a key, or with KEY3 and neither reset bit, changes nothing. To SCTLR,
without SYSRESET on V3B and V3C, it writes the four control bits, and SETEVENT sets the event latch. To VTFBADDRR
(V3A), VTFIDR (V3B, V3C) and VTFADDRR it writes the implemented bits. To ISR, IPR, IACTR and GISR it changes
nothing. Where HWSTKCTRL changes, the frames of the handlers being run are left unbalanced. Nothing else changes but
the pc and a reservation of the stored word. That the other bits of a word that sets PFICRESET are dropped is the
model's choice (log entry 44). So is that a pending bit set by software is an event (log entry 18), and that the
handlers being run are no register of the controller, so that inside a handler they, the level and PFIC_GISR.NESTSTA
outlast PFICRESET (log entry 46). -/
def Obligations.PficControlWrites : Prop :=
  ∀ (s : State) (rs1 rs2 : Reg) (imm : BitVec 12),
    let a := s.readReg rs1 + BitVec.ofInt 32 imm.toInt
    let v := s.readReg rs2
    let key := v.extractLsb' 16 16
    let leaves (p : Pfic) := LeavesPfic (.sw rs2 rs1 imm) s a p s.eventLatch
    let nmi : BitVec 256 := if v.getLsbD 2 then 4 else 0
    StoreAllowed s a →
    (a = 0xE000E048 → s.cfg.model = .v3a →
      (key = 0xFA05 → v.getLsbD 6 = false → leaves { s.pfic with cfgr := v.extractLsb' 0 2 }) ∧
      (key = 0xBCAF → v.getLsbD 6 = false → v.getLsbD 4 = false → (v.getLsbD 2 && v.getLsbD 3) = false →
        LeavesPfic (.sw rs2 rs1 imm) s a
          { s.pfic with pend := (s.pfic.pend &&&
            ~~~((if v.getLsbD 5 then 8 else 0) ||| (if v.getLsbD 3 then 4 else 0))) ||| nmi } (latchAfter s nmi)) ∧
      (v.getLsbD 6 = true → key = 0xFA05 ∨ key = 0xBCAF ∨ (key = 0xBEEF ∧ v.getLsbD 7 = false) → leaves Pfic.reset) ∧
      (key ∉ [0xFA05, 0xBCAF, 0xBEEF] ∨ (key = 0xBEEF ∧ v.getLsbD 7 = false ∧ v.getLsbD 6 = false) → leaves s.pfic)) ∧
    (a = 0xE000ED10 → s.cfg.model = .v3a ∨ v.getLsbD 31 = false →
      LeavesPfic (.sw rs2 rs1 imm) s a { s.pfic with sctlr := v &&& 0x1E } (s.eventLatch || v.getLsbD 5)) ∧
    (a = 0xE000E044 → s.cfg.model = .v3a → leaves { s.pfic with vtfbaddrr := v &&& 0xF0000000 }) ∧
    (a = 0xE000E050 → s.cfg.model ≠ .v3a → leaves { s.pfic with vtfidr := v }) ∧
    (∀ k : Fin 4, a.toNat = 0xE000E060 + 4 * k.val → leaves { s.pfic with
      vtfaddrr := s.pfic.vtfaddrr.set k.val (v &&& (if s.cfg.model = .v3a then 0xFF0FFFFF else 0xFFFFFFFF)) }) ∧
    (∀ x : Fin 8, a.toNat ∈ [0xE000E000 + 4 * x.val, 0xE000E020 + 4 * x.val, 0xE000E300 + 4 * x.val, 0xE000E04C] →
      leaves s.pfic)

/-- Where the checks allow the access: a word load of STK_CTLR, STK_SR (V3B, V3C), the count and the compare value reads
what they hold, the words of V3A being at its own offsets; a byte or halfword load of a counter or compare word
reads the byte lane. A word store to STK_CTLR writes its implemented bits, to STK_SR the bit SWIE, and clears CNTIF
where it writes 0; a request of interrupt 12 or 14 that this newly asserts becomes pending, an event with SEVONPEND,
and one that it withdraws leaves the latched pending bit. On V3B and V3C a store of any width writes its byte lanes
of the count and the compare value; on V3A a byte store does, and a wider one changes nothing. Nothing else changes
but rd or the timer, the pc, and a reservation of the stored word. The model's choices are: that such a request is
an event (log entry 18), that a withdrawn one leaves its pending bit (log entry 17), and that a written count is
compared only at the next tick, so that the store sets no flag (log entry 20). -/
def Obligations.TimerRegisters : Prop :=
  ∀ (s : State) (rd rs1 rs2 : Reg) (imm : BitVec 12),
    let a := s.readReg rs1 + BitVec.ofInt 32 imm.toInt
    let v := s.readReg rs2
    let k := s.stk
    let words := if s.cfg.model = .v3a then
        [(0xE000F000, k.ctlr), (0xE000F004, k.cntl), (0xE000F008, k.cnth), (0xE000F00C, k.cmpl), (0xE000F010, k.cmph)]
      else [(0xE000F000, k.ctlr), (0xE000F004, k.sr), (0xE000F008, k.cntl), (0xE000F010, k.cmpl)]
    let counters : List (Nat × Word × (Word → SysTick)) := if s.cfg.model = .v3a then
        [(0xE000F004, k.cntl, fun w => { k with cntl := w }), (0xE000F008, k.cnth, fun w => { k with cnth := w }),
          (0xE000F00C, k.cmpl, fun w => { k with cmpl := w }), (0xE000F010, k.cmph, fun w => { k with cmph := w })]
      else [(0xE000F008, k.cntl, fun w => { k with cntl := w }), (0xE000F010, k.cmpl, fun w => { k with cmpl := w })]
    let raises (sr ctlr : Word) : BitVec 256 :=
      (if s.cfg.model ≠ .v3a ∧ (sr.getLsbD 0 && ctlr.getLsbD 1) = true ∧ (k.sr.getLsbD 0 && k.ctlr.getLsbD 1) = false
        then 0x1000 else 0) |||
      (if s.cfg.model ≠ .v3a ∧ sr.getLsbD 31 = true ∧ k.sr.getLsbD 31 = false then 0x4000 else 0)
    let lanes (old : Word) (lane count : Nat) (w : Word) : Prop := ∀ j, j < 4 → w.extractLsb' (8 * j) 8 =
      if lane ≤ j ∧ j < lane + count then v.extractLsb' (8 * (j - lane)) 8 else old.extractLsb' (8 * j) 8
    (LoadAllowed s a →
      (∀ e ∈ words, a = e.1 → Completes (.lw rd rs1 imm) s rd e.2 (s.pc + 4)) ∧
      (∀ e ∈ counters, ∀ l, l < 4 → a.toNat = e.1 + l →
        Completes (.lbu rd rs1 imm) s rd ((e.2.1.extractLsb' (8 * l) 8).zeroExtend 32) (s.pc + 4) ∧
        (l % 2 = 0 → Completes (.lhu rd rs1 imm) s rd ((e.2.1.extractLsb' (8 * l) 16).zeroExtend 32) (s.pc + 4)))) ∧
    (StoreAllowed s a →
      (a = 0xE000F000 →
        let c := v &&& (if s.cfg.model = .v3a then 0x1 else 0x1F)
        LeavesTimer (.sw rs2 rs1 imm) s a { k with ctlr := c } (raises k.sr c)) ∧
      (a = 0xE000F004 → s.cfg.model ≠ .v3a →
        let r := (v &&& 0x80000000) ||| (k.sr &&& v &&& 1)
        LeavesTimer (.sw rs2 rs1 imm) s a { k with sr := r } (raises r k.ctlr)) ∧
      (∀ e ∈ counters, ∀ l, l < 4 → a.toNat = e.1 + l →
        (∀ w, lanes e.2.1 l 1 w → LeavesTimer (.sb rs2 rs1 imm) s a (e.2.2 w) 0) ∧
        (l % 2 = 0 → s.cfg.model ≠ .v3a → ∀ w, lanes e.2.1 l 2 w → LeavesTimer (.sh rs2 rs1 imm) s a (e.2.2 w) 0) ∧
        (l = 0 → s.cfg.model ≠ .v3a → LeavesTimer (.sw rs2 rs1 imm) s a (e.2.2 v) 0) ∧
        (l % 2 = 0 → s.cfg.model = .v3a → LeavesTimer (.sh rs2 rs1 imm) s a k 0) ∧
        (l = 0 → s.cfg.model = .v3a → LeavesTimer (.sw rs2 rs1 imm) s a k 0)))

/-- On V3B and V3C with the timer counting up at HCLK with reload and interrupt enabled, from count 0 with the flag
clear, awake and outside debug mode, for a compare value that is not 0: after k periods with k below the compare
value the count is k and the flag is clear; after as many periods as the compare value the count equals it, CNTIF is
set and interrupt 12 is pending; the next period gives 0. That the comparison comes with the tick that changes the
count is log entry 20. -/
def Obligations.TimerCountsToCompare : Prop :=
  ∀ s : State, s.cfg.model ≠ .v3a → s.dbg = .running → s.sleep = .awake → s.stk.ctlr = 0xF → s.stk.sr = 0 →
    s.stk.cntl = 0 → s.stk.cmpl ≠ 0 →
    (∀ k, k < s.stk.cmpl.toNat →
      (s.hclkPeriods k).stk.cntl = BitVec.ofNat 32 k ∧ (s.hclkPeriods k).stk.sr = 0) ∧
    (s.hclkPeriods s.stk.cmpl.toNat).stk.cntl = s.stk.cmpl ∧
    (s.hclkPeriods s.stk.cmpl.toNat).stk.sr = 1 ∧
    (s.hclkPeriods s.stk.cmpl.toNat).pending.getLsbD 12 = true ∧
    (s.hclkPeriods (s.stk.cmpl.toNat + 1)).stk.cntl = 0

/-- The counter holds while STE is 0, in Deep Sleep, and in debug mode with stoptime. Otherwise, from a divider that has
just rolled over: on V3A the 64-bit count grows by one every 8 periods of HCLK, and interrupt 12 becomes pending
when it equals the compare value. On V3B and V3C, with one tick a period (STCLK = 1) or every 8 periods (STCLK = 0):
without reload the count after k ticks is k more, or k less when counting down, modulo 2^32, and CNTIF is set by a
tick that reaches the compare value, or 0; counting down with reload it reaches 0, sets CNTIF and starts again from
the compare value. That the flag is set in the tick that reaches the value and the reload comes with the next one is
the spec's decision D32; the divider's phase is log entry 20. -/
def Obligations.TimerModes : Prop :=
  ∀ s : State,
    (s.stk.ctlr.getLsbD 0 = false ∨ (∃ w, s.sleep = .asleep true w) ∨
        (s.dbg ≠ .running ∧ s.csr.dcsr.getLsbD 9 = true) →
      ∀ k, (s.hclkPeriods k).stk = { s.stk with div := (s.hclkPeriods k).stk.div } ∧
        (s.hclkPeriods k).pfic = s.pfic) ∧
    (s.stk.ctlr.getLsbD 0 = true → (∀ w, s.sleep ≠ .asleep true w) →
      (s.dbg = .running ∨ s.csr.dcsr.getLsbD 9 = false) → s.stk.div = 0 →
      (s.cfg.model = .v3a → ∀ k : Nat,
        let count (t : State) : BitVec 64 := t.stk.cnth ++ t.stk.cntl
        (∀ j, j < 8 → count (s.hclkPeriods (8 * k + j)) = count s + BitVec.ofNat 64 k) ∧
        (k ≠ 0 → (s.stk.cmph ++ s.stk.cmpl : BitVec 64) = count s + BitVec.ofNat 64 k →
          (s.hclkPeriods (8 * k)).pfic.pend.getLsbD 12 = true)) ∧
      (s.cfg.model ≠ .v3a → ∀ k : Nat,
        let p := if s.stk.ctlr.getLsbD 2 then 1 else 8
        let t := (s.hclkPeriods (p * k)).stk
        (s.stk.ctlr.getLsbD 3 = false → s.stk.ctlr.getLsbD 4 = false → t.cntl = s.stk.cntl + BitVec.ofNat 32 k ∧
          (k ≠ 0 → t.cntl = s.stk.cmpl → t.sr.getLsbD 0 = true)) ∧
        (s.stk.ctlr.getLsbD 3 = false → s.stk.ctlr.getLsbD 4 = true → t.cntl = s.stk.cntl - BitVec.ofNat 32 k ∧
          (k ≠ 0 → t.cntl = 0 → t.sr.getLsbD 0 = true)) ∧
        (s.stk.ctlr.getLsbD 3 = true → s.stk.ctlr.getLsbD 4 = true →
          (k ≤ s.stk.cntl.toNat → t.cntl = s.stk.cntl - BitVec.ofNat 32 k ∧
            (k ≠ 0 → t.cntl = 0 → t.sr.getLsbD 0 = true)) ∧
          (k = s.stk.cntl.toNat + 1 → t.cntl = s.stk.cmpl))))

/-- With no input: a core that sleeps with no enabled interrupt pending, no event it waits for and no halt request it
can see stays exactly as it is, step after step; an event wakes a core that waits for one, which clears the event
and goes on as if awake; a halt request does not wake a core in Deep Sleep. That the step in which an event wakes
the core goes on as if it had been awake, so that waking takes no step of its own, is the model's choice (log entry
19). -/
def Obligations.SleepingCoreWaits : Prop :=
  ∀ (s : State) (deep wfe : Bool), s.dbg = .running → s.inputs = [] → s.sleep = .asleep deep wfe →
    ((s.dm.haltreq = false ∨ deep = true) → s.pending &&& s.enabled = 0 → (wfe && s.eventLatch) = false →
      step s = .next s) ∧
    (s.dm.haltreq = false → s.pending &&& s.enabled = 0 → wfe = true → s.eventLatch = true →
      step s = step { s with sleep := .awake, eventLatch := false })

/-- A halt request at a boundary of a running core that is awake or in Sleep, with no input and no trigger on the pc,
enters debug mode with dpc the pc and cause 3, or cause 1 where an ebreak at the pc would enter debug mode itself; a
trigger with ACTION = 1 on the pc gives cause 2. It changes nothing else but dcsr.prv, the mode, and that the core
is awake. With dcsr.step set, a step that runs an instruction to a running core ends in debug mode with dpc the next
pc and cause 4 (3 when a halt is requested, 2 when a trigger with ACTION = 1 is on it), and is as it is without
dcsr.step; with stepie = 0 no interrupt is let in, NMI included, which is the model's reading of R574 (log entry 25,
DEDUCED). A halted core with no input stays as it is. A write of resumereq to dmcontrol, with the module active and
no halt request in it, makes a halted core run at dpc with bit 0 cleared in the mode dcsr.prv names, and sets
resumeack; registers, memory and the other CSRs stay. That a halt request is served before an interrupt, where each
cause is looked for, and that a stepped wfi or sleeping mret ends the step at once, with the core awake, are the
model's choices (log entry 29). -/
def Obligations.HaltStepAndResume : Prop :=
  ∀ s : State,
    (s.dbg = .running → s.inputs = [] → s.dm.haltreq = true → s.deepAsleep = false →
      (s.firedTrigger .fetch s.pc = some true → ∃ t, step s = .next t ∧ EntersDebugByTrigger s t) ∧
      (s.firedTrigger .fetch s.pc = none →
        (s.csr.dcsr.getLsbD (if s.priv = .machine then 15 else 12) = false →
          ∃ t, step s = .next t ∧ t.csr.dpc = s.pc ∧ EntersDebug s t 3) ∧
        (s.csr.dcsr.getLsbD (if s.priv = .machine then 15 else 12) = true → ∀ i n, CodeFetchable s n →
          decode (codeBytes s) = .ok (i, n) →
          ∃ t, step s = .next t ∧ t.csr.dpc = s.pc ∧ EntersDebug s t (if i = .ebreak ∨ i = .cEbreak then 1 else 3)))) ∧
    (∀ (i : Instr) (n : Nat) (t : State), Undisturbed s → CodeFetchable s n → decode (codeBytes s) = .ok (i, n) →
      exec i s = .next t → t.dbg = .running →
      (t.csr.dcsr.getLsbD 2 = false → step s = .next t) ∧
      (t.csr.dcsr.getLsbD 2 = true → t.firedTrigger .fetch t.pc ≠ some true →
        ∃ u, step s = .next u ∧ u.csr.dpc = t.pc ∧ EntersDebug t u (if t.dm.haltreq = true then 3 else 4)) ∧
      (t.csr.dcsr.getLsbD 2 = true → t.firedTrigger .fetch t.pc = some true →
        ∃ u, step s = .next u ∧ EntersDebugByTrigger t u)) ∧
    s.sampledInterrupt =
      (if s.csr.dcsr.getLsbD 2 = true ∧ s.csr.dcsr.getLsbD 11 = false then none else s.acceptedInterrupt) ∧
    (s.dbg = .halted → s.inputs = [] → step s = .next s) ∧
    (s.dbg = .halted → s.cfg.debugger = true → s.dm.dmactive = true →
      ∃ t, s.hostAccess (.write 0x10 0x40000001) = .ok () t ∧ t.dbg = .running ∧
        t.pc = s.csr.dpc &&& 0xFFFFFFFE ∧
        t.priv = (if s.csr.dcsr.extractLsb' 0 2 = 3 then .machine else .user) ∧
        t.dm.resumeack = true ∧ t = { s with pc := t.pc, priv := t.priv, dbg := t.dbg, dm := t.dm })

/-- With a debugger, an active module and no earlier error: on a halted core the 32-bit access-register commands copy a
general register to data0, or data0 to it (discarded for x0), and change nothing else but the command register, with
postincrement the register number in it; while the core runs both commands change no register and record cmderr 4;
the 64-bit size, in both directions, records cmderr 2. That a copy to data0 leaves a reservation of the word that
the core sees there is the model's choice (log entry 9). -/
def Obligations.AbstractRegisterAccess : Prop :=
  ∀ (s : State) (r : Reg), s.cfg.debugger = true → s.dm.dmactive = true → s.dm.cmderr = 0 →
    let read : Word := 0x00221000 + r.zeroExtend 32
    let write : Word := 0x00231000 + r.zeroExtend 32
    let errs (c : Word) (e : BitVec 3) := s.hostAccess (.write 0x17 c) =
      .ok () { s with dm := { s.dm with command := c, cmderr := e } }
    (s.dbg = .halted → s.hostAccess (.write 0x17 read) =
      .ok () { s with dm := { s.dm with command := read, data0 := s.readReg r } }) ∧
    (s.dbg = .halted → ∃ t, s.hostAccess (.write 0x17 write) = .ok () t ∧
      WritesReg s t r s.dm.data0 ∧ t = { s with dm := { s.dm with command := write }, regs := t.regs }) ∧
    (s.dbg = .halted → s.hostAccess (.write 0x17 (0x00080000 + read)) =
      .ok () { s with dm := { s.dm with command := 0x00080000 + read + 1, data0 := s.readReg r } }) ∧
    (s.dbg = .running → errs read 4 ∧ errs write 4) ∧
    (s.dbg = .halted → errs (0x00100000 + read) 2 ∧ errs (0x00100000 + write) 2)

/-- With a debugger, an active module, a halted core and no earlier error, on V3B and V3C: the access-memory command
with the address in data1 reads the word there to data0 (a byte or a halfword to its low bits), or writes data0, or
the or or the sum of data0 and the word, there, with postincrement adding the width to data1 (to what the write left
in it, where the core sees data1 at that address), and changes nothing else but the command register, and a write a
reservation of the word; a misaligned address records cmderr 3, one that holds nothing cmderr 5, and V3A cmderr 2.
postexec starts the program buffer at its first word. In the program buffer a step runs the instruction decoded at
the pc, which is an offset into it; ebreak and c.ebreak end the run without an error, an exception (as of ecall)
ends it with cmderr 3, and no general register, CSR or memory byte changes by that. Reads and writes are stated
where they reach memory, in its canonical form. The model's choices are: the cause a misaligned address records, and
that no PMP region denies a memory command (log entry 27); the pc as an offset into the buffer, and that an
exception leaves the registers unchanged (log entry 28). -/
def Obligations.AbstractMemoryAndProgramBuffer : Prop :=
  ∀ s : State, MemoryCanonical s →
    let a := s.dm.data1
    let cmd (c : Word) := s.hostAccess (.write 0x17 c)
    let done (c : Word) (d : DebugModule) : Res Unit := .ok () { s with dm := { d with command := c } }
    let writes (c : Word) (bytes : List Byte) (next : Word) := ∃ t, cmd c = .ok () t ∧ WritesBytes s t a bytes ∧
      KeepsOtherReservation s t a ∧
      t = { s with
        mem := t.mem
        stale := t.stale
        resv := t.resv
        dm := { s.dm with command := c, data1 := next } }
    (s.cfg.debugger = true → s.dm.dmactive = true → s.dm.cmderr = 0 → s.dbg = .halted →
      (s.cfg.model ≠ .v3a → s.target a = .memory →
        (∃ t, cmd 0x02000000 = .ok () t ∧ t.dm.data0.extractLsb' 0 8 = byteAt s a 0 ∧
          t = { s with dm := { s.dm with command := 0x02000000, data0 := t.dm.data0 }, freeIndex := t.freeIndex }) ∧
        (a.toNat % 2 = 0 → ∃ t, cmd 0x02100000 = .ok () t ∧ t.dm.data0.extractLsb' 0 16 = halfAt s a ∧
          t = { s with dm := { s.dm with command := 0x02100000, data0 := t.dm.data0 }, freeIndex := t.freeIndex }) ∧
        writes 0x02010000 [s.dm.data0.extractLsb' 0 8] a ∧
        (a.toNat % 2 = 0 → writes 0x02110000 [s.dm.data0.extractLsb' 0 8, s.dm.data0.extractLsb' 8 8] a) ∧
        (a.toNat % 4 = 0 →
          cmd 0x02200000 = done 0x02200000 { s.dm with data0 := wordAt s a } ∧
          cmd 0x02280000 = done 0x02280000 { s.dm with data0 := wordAt s a, data1 := a + 4 } ∧
          writes 0x02210000 (bytesOfWord s.dm.data0) a ∧
          writes 0x02290000 (bytesOfWord s.dm.data0) (a + 4) ∧
          writes 0x02218000 (bytesOfWord (wordAt s a ||| s.dm.data0)) a ∧
          writes 0x0221C000 (bytesOfWord (wordAt s a + s.dm.data0)) a)) ∧
      (s.cfg.model ≠ .v3a → s.target a = .debugData → a.toNat % 4 = 0 →
        a.toNat = 0xE0000004 + s.cfg.dataAddr.toNat →
        ∃ t, cmd 0x02290000 = .ok () t ∧ KeepsOtherReservation s t a ∧
          t = { s with
            resv := t.resv
            dm := { s.dm with command := 0x02290000, data1 := s.dm.data0 + 4 } }) ∧
      (s.cfg.model ≠ .v3a → a.toNat % 4 ≠ 0 →
        ∀ c ∈ [(0x02200000 : Word), 0x02210000], cmd c = done c { s.dm with cmderr := 3 }) ∧
      (s.cfg.model ≠ .v3a → a.toNat % 4 = 0 → s.target a = .unmapped →
        ∀ c ∈ [(0x02200000 : Word), 0x02210000], cmd c = done c { s.dm with cmderr := 5 }) ∧
      (s.cfg.model = .v3a → ∀ c ∈ [(0x02200000 : Word), 0x02210000], cmd c = done c { s.dm with cmderr := 2 }) ∧
      cmd 0x00040000 = .ok () { s with dbg := .progbuf, pc := 0, dm := { s.dm with command := 0x00040000 } }) ∧
    (s.dbg = .progbuf →
      (∀ i n, s.inputs = [] → s.pc.toNat < 32 →
        decode ((s.dm.progbuf.toList.flatMap wordBytes).drop s.pc.toNat) = .ok (i, n) → step s = exec i s) ∧
      (∀ i ∈ [Instr.ebreak, .cEbreak], exec i s = .next { s with dbg := .halted }) ∧
      (s.dm.cmderr = 0 → exec .ecall s = .next { s with dbg := .halted, dm := { s.dm with cmderr := 3 } }))

/-- For all parameters, right after reset: the mode is machine mode and the pc the reset vector (even); mstatus, mtvec,
mscratch, mepc, mcause and mtval are 0, intsyscr is 0xE002 and corecfgr 1; no handler runs, the hardware stack is
empty, nothing is reserved, the core is awake with no event; no programmable interrupt is enabled and none is
pending or active, so that PFIC_ISR0 reads 0xC on V3A and 0x32C on V3B and V3C; the timer's control and status are
0; abstractcs reads 0x08000002 and dmstatus 0x82. (General registers and the contents of memory have no reset value
in the spec and are not in this statement.) -/
def Obligations.ResetValues : Prop :=
  ∀ c : Config,
    let s := State.resetWith c
    s.priv = .machine ∧ s.pc = c.resetPc &&& 0xFFFFFFFE ∧ s.csr.mstatus = 0 ∧ s.csr.mtvec = 0 ∧ s.csr.mscratch = 0 ∧
      s.csr.mepc = 0 ∧ s.csr.mcause = 0 ∧ s.csr.mtval = 0 ∧ s.csr.pmpcfg0 = 0 ∧ s.csr.intsyscr = 0xE002 ∧
      s.csr.corecfgr = 1 ∧ s.csr.inestcr = 0 ∧ s.handlers = [] ∧ s.hpe[0] = .empty ∧ s.hpe[1] = .empty ∧ s.resv = none ∧
      s.sleep = .awake ∧ s.eventLatch = false ∧ s.pfic.en = 0 ∧ s.pending = 0 ∧ s.pfic.act = 0 ∧
      groupWord s.enabled 0 = (if c.model = .v3a then 0xC else 0x32C) ∧ s.stk.ctlr = 0 ∧ s.stk.sr = 0 ∧
      s.dmValue .abstractcs = 0x08000002 ∧ s.dmstatus = 0x82

/-- A word store that the checks allow, of a value with bit 31 set to PFIC_SCTLR on V3B and V3C, or of 0xBEEF0080 to
PFIC_CFGR on V3A, leaves the state after reset for the same parameters, with every byte of memory reading as before.
(That memory is kept, that SYSRESET resets the debug module and the debug state too, a DESIGN CHOICE, and which of
the model's own fields go on, is log entry 30.) -/
def Obligations.SystemResetByStore : Prop :=
  ∀ (s : State) (rs1 rs2 : Reg) (imm : BitVec 12),
    let a := s.readReg rs1 + BitVec.ofInt 32 imm.toInt
    StoreAllowed s a →
    (a = 0xE000ED10 → s.cfg.model ≠ .v3a → (s.readReg rs2).getLsbD 31 = true →
      ∃ t, exec (.sw rs2 rs1 imm) s = .next t ∧ WasReset s t) ∧
    (a = 0xE000E048 → s.cfg.model = .v3a → s.readReg rs2 = 0xBEEF0080 →
      ∃ t, exec (.sw rs2 rs1 imm) s = .next t ∧ WasReset s t)

/-- For all parameters the reset state has its memory in canonical form, an even pc and mepc, legal CSR fields and legal
device fields. -/
def Obligations.ResetMeetsInvariants : Prop :=
  ∀ c : Config, MemoryCanonical (State.resetWith c) ∧ PcEven (State.resetWith c) ∧
    CsrFieldsLegal c.model (State.resetWith c).csr ∧ DeviceFieldsLegal (State.resetWith c)

/-- From any state whose memory lists rising addresses of the 4 GB space and no byte equal to an unlisted one, whatever
the step does (an instruction, a trap, an access of another bus master or of the debugger, a reset), the memory of
the next state has that form again. -/
def Obligations.StepKeepsMemoryCanonical : Prop :=
  ∀ s t : State, MemoryCanonical s → step s = .next t → MemoryCanonical t

/-- From any state whose pc and mepc are even, whatever the step does, bit 0 of the pc and of mepc is 0 in the next
state: no instruction, trap entry, return, vector-table word, debug resume or reset produces an odd pc. -/
def Obligations.StepKeepsPcEven : Prop :=
  ∀ s t : State, PcEven s → step s = .next t → PcEven t

/-- From any state whose CSRs hold legal field values (reserved and fixed bits as the spec fixes them, MPP and dcsr.prv
one of the two modes, FETCH_MODE not reserved, MODE1 0 on V3A, the fixed fields of every tdata1), whatever the step
does, they do in the next state; and a nesting level of at most 4 stays at most 4 (an entry beyond it is outside the
model, D22). -/
def Obligations.StepKeepsCsrFields : Prop :=
  ∀ s t : State, CsrFieldsLegal s.cfg.model s.csr → s.level ≤ 4 → step s = .next t →
    CsrFieldsLegal t.cfg.model t.csr ∧ t.level ≤ 4

/-- From any state whose interrupt-controller and timer registers hold only implemented bits, and in which no reserved
internal number is pending or active, whatever the step does, they do in the next state; and no step changes a
parameter of the machine. -/
def Obligations.StepKeepsDeviceFields : Prop :=
  ∀ s t : State, DeviceFieldsLegal s → step s = .next t → DeviceFieldsLegal t ∧ t.cfg = s.cfg

/-- Whatever instruction runs in user mode outside debug mode, if the machine is still in user mode and outside debug
mode after it, every CSR is as before but intsyscr and bits 3 and 7 of mstatus (which gintenr reaches). -/
def Obligations.UserModeKeepsMachineCsrs : Prop :=
  ∀ (i : Instr) (s t : State), s.dbg = .running → s.priv = .user → exec i s = .next t → t.priv = .user →
    t.dbg = .running →
    t.csr = { s.csr with mstatus := t.csr.mstatus, intsyscr := t.csr.intsyscr } ∧
      t.csr.mstatus &&& 0xFFFFFF77 = s.csr.mstatus &&& 0xFFFFFF77

/-- If an instruction that runs in machine mode leaves the machine in user mode, it is mret; every other instruction,
whatever it traps on or stores to, leaves machine mode as it is. -/
def Obligations.OnlyMretDropsPrivilege : Prop :=
  ∀ (i : Instr) (s t : State), exec i s = .next t → s.priv = .machine → t.priv = .user → i = .mret
end

