-- ==== Sys2Proof/Laws/State.lean ====
section
/-! SUPPORT. What each small update of the state does to each field: one lemma a field and update, so that no proof
unfolds a record update. -/

namespace Sys2Proof.Machine

@[simp] theorem State.setPc_cfg (s : State) (a : Word) : (s.setPc a).cfg = s.cfg := rfl
@[simp] theorem State.setPc_regs (s : State) (a : Word) : (s.setPc a).regs = s.regs := rfl
@[simp] theorem State.setPc_pc (s : State) (a : Word) : (s.setPc a).pc = a := rfl
@[simp] theorem State.setPc_priv (s : State) (a : Word) : (s.setPc a).priv = s.priv := rfl
@[simp] theorem State.setPc_csr (s : State) (a : Word) : (s.setPc a).csr = s.csr := rfl
@[simp] theorem State.setPc_mem (s : State) (a : Word) : (s.setPc a).mem = s.mem := rfl
@[simp] theorem State.setPc_stale (s : State) (a : Word) : (s.setPc a).stale = s.stale := rfl
@[simp] theorem State.setPc_resv (s : State) (a : Word) : (s.setPc a).resv = s.resv := rfl
@[simp] theorem State.setPc_pfic (s : State) (a : Word) : (s.setPc a).pfic = s.pfic := rfl
@[simp] theorem State.setPc_stk (s : State) (a : Word) : (s.setPc a).stk = s.stk := rfl
@[simp] theorem State.setPc_hpe (s : State) (a : Word) : (s.setPc a).hpe = s.hpe := rfl
@[simp] theorem State.setPc_handlers (s : State) (a : Word) : (s.setPc a).handlers = s.handlers := rfl
@[simp] theorem State.setPc_sleep (s : State) (a : Word) : (s.setPc a).sleep = s.sleep := rfl
@[simp] theorem State.setPc_eventLatch (s : State) (a : Word) : (s.setPc a).eventLatch = s.eventLatch := rfl
@[simp] theorem State.setPc_locked (s : State) (a : Word) : (s.setPc a).locked = s.locked := rfl
@[simp] theorem State.setPc_dbg (s : State) (a : Word) : (s.setPc a).dbg = s.dbg := rfl
@[simp] theorem State.setPc_dm (s : State) (a : Word) : (s.setPc a).dm = s.dm := rfl
@[simp] theorem State.setPc_inputs (s : State) (a : Word) : (s.setPc a).inputs = s.inputs := rfl
@[simp] theorem State.setPc_freeIndex (s : State) (a : Word) : (s.setPc a).freeIndex = s.freeIndex := rfl

@[simp] theorem State.advance_cfg (s : State) (len : Word) : (s.advance len).cfg = s.cfg := rfl
@[simp] theorem State.advance_regs (s : State) (len : Word) : (s.advance len).regs = s.regs := rfl
@[simp] theorem State.advance_pc (s : State) (len : Word) : (s.advance len).pc = s.pc + len := rfl
@[simp] theorem State.advance_priv (s : State) (len : Word) : (s.advance len).priv = s.priv := rfl
@[simp] theorem State.advance_csr (s : State) (len : Word) : (s.advance len).csr = s.csr := rfl
@[simp] theorem State.advance_mem (s : State) (len : Word) : (s.advance len).mem = s.mem := rfl
@[simp] theorem State.advance_stale (s : State) (len : Word) : (s.advance len).stale = s.stale := rfl
@[simp] theorem State.advance_resv (s : State) (len : Word) : (s.advance len).resv = s.resv := rfl
@[simp] theorem State.advance_pfic (s : State) (len : Word) : (s.advance len).pfic = s.pfic := rfl
@[simp] theorem State.advance_stk (s : State) (len : Word) : (s.advance len).stk = s.stk := rfl
@[simp] theorem State.advance_hpe (s : State) (len : Word) : (s.advance len).hpe = s.hpe := rfl
@[simp] theorem State.advance_handlers (s : State) (len : Word) : (s.advance len).handlers = s.handlers := rfl
@[simp] theorem State.advance_sleep (s : State) (len : Word) : (s.advance len).sleep = s.sleep := rfl
@[simp] theorem State.advance_eventLatch (s : State) (len : Word) : (s.advance len).eventLatch = s.eventLatch := rfl
@[simp] theorem State.advance_locked (s : State) (len : Word) : (s.advance len).locked = s.locked := rfl
@[simp] theorem State.advance_dbg (s : State) (len : Word) : (s.advance len).dbg = s.dbg := rfl
@[simp] theorem State.advance_dm (s : State) (len : Word) : (s.advance len).dm = s.dm := rfl
@[simp] theorem State.advance_inputs (s : State) (len : Word) : (s.advance len).inputs = s.inputs := rfl
@[simp] theorem State.advance_freeIndex (s : State) (len : Word) : (s.advance len).freeIndex = s.freeIndex := rfl

@[simp] theorem State.drawn_cfg (s : State) : (s.drawn).cfg = s.cfg := rfl
@[simp] theorem State.drawn_regs (s : State) : (s.drawn).regs = s.regs := rfl
@[simp] theorem State.drawn_pc (s : State) : (s.drawn).pc = s.pc := rfl
@[simp] theorem State.drawn_priv (s : State) : (s.drawn).priv = s.priv := rfl
@[simp] theorem State.drawn_csr (s : State) : (s.drawn).csr = s.csr := rfl
@[simp] theorem State.drawn_mem (s : State) : (s.drawn).mem = s.mem := rfl
@[simp] theorem State.drawn_stale (s : State) : (s.drawn).stale = s.stale := rfl
@[simp] theorem State.drawn_resv (s : State) : (s.drawn).resv = s.resv := rfl
@[simp] theorem State.drawn_pfic (s : State) : (s.drawn).pfic = s.pfic := rfl
@[simp] theorem State.drawn_stk (s : State) : (s.drawn).stk = s.stk := rfl
@[simp] theorem State.drawn_hpe (s : State) : (s.drawn).hpe = s.hpe := rfl
@[simp] theorem State.drawn_handlers (s : State) : (s.drawn).handlers = s.handlers := rfl
@[simp] theorem State.drawn_sleep (s : State) : (s.drawn).sleep = s.sleep := rfl
@[simp] theorem State.drawn_eventLatch (s : State) : (s.drawn).eventLatch = s.eventLatch := rfl
@[simp] theorem State.drawn_locked (s : State) : (s.drawn).locked = s.locked := rfl
@[simp] theorem State.drawn_dbg (s : State) : (s.drawn).dbg = s.dbg := rfl
@[simp] theorem State.drawn_dm (s : State) : (s.drawn).dm = s.dm := rfl
@[simp] theorem State.drawn_inputs (s : State) : (s.drawn).inputs = s.inputs := rfl
@[simp] theorem State.drawn_freeIndex (s : State) : (s.drawn).freeIndex = s.freeIndex + 1 := rfl

@[simp] theorem State.request_cfg (s : State) (mask : BitVec 256) : (s.request mask).cfg = s.cfg := rfl
@[simp] theorem State.request_regs (s : State) (mask : BitVec 256) : (s.request mask).regs = s.regs := rfl
@[simp] theorem State.request_pc (s : State) (mask : BitVec 256) : (s.request mask).pc = s.pc := rfl
@[simp] theorem State.request_priv (s : State) (mask : BitVec 256) : (s.request mask).priv = s.priv := rfl
@[simp] theorem State.request_csr (s : State) (mask : BitVec 256) : (s.request mask).csr = s.csr := rfl
@[simp] theorem State.request_mem (s : State) (mask : BitVec 256) : (s.request mask).mem = s.mem := rfl
@[simp] theorem State.request_stale (s : State) (mask : BitVec 256) : (s.request mask).stale = s.stale := rfl
@[simp] theorem State.request_resv (s : State) (mask : BitVec 256) : (s.request mask).resv = s.resv := rfl
@[simp] theorem State.request_pfic (s : State) (mask : BitVec 256) :
    (s.request mask).pfic = { s.pfic with pend := s.pfic.pend ||| mask } := rfl
@[simp] theorem State.request_stk (s : State) (mask : BitVec 256) : (s.request mask).stk = s.stk := rfl
@[simp] theorem State.request_hpe (s : State) (mask : BitVec 256) : (s.request mask).hpe = s.hpe := rfl
@[simp] theorem State.request_handlers (s : State) (mask : BitVec 256) : (s.request mask).handlers = s.handlers := rfl
@[simp] theorem State.request_sleep (s : State) (mask : BitVec 256) : (s.request mask).sleep = s.sleep := rfl
@[simp] theorem State.request_eventLatch (s : State) (mask : BitVec 256) :
    (s.request mask).eventLatch = (s.eventLatch || (s.sevonpend && mask &&& ~~~s.pending != 0)) := rfl
@[simp] theorem State.request_locked (s : State) (mask : BitVec 256) : (s.request mask).locked = s.locked := rfl
@[simp] theorem State.request_dbg (s : State) (mask : BitVec 256) : (s.request mask).dbg = s.dbg := rfl
@[simp] theorem State.request_dm (s : State) (mask : BitVec 256) : (s.request mask).dm = s.dm := rfl
@[simp] theorem State.request_inputs (s : State) (mask : BitVec 256) : (s.request mask).inputs = s.inputs := rfl
@[simp] theorem State.request_freeIndex (s : State) (mask : BitVec 256) :
    (s.request mask).freeIndex = s.freeIndex := rfl

@[simp] theorem State.setStk_cfg (s : State) (t : SysTick) : (s.setStk t).cfg = s.cfg := rfl
@[simp] theorem State.setStk_regs (s : State) (t : SysTick) : (s.setStk t).regs = s.regs := rfl
@[simp] theorem State.setStk_pc (s : State) (t : SysTick) : (s.setStk t).pc = s.pc := rfl
@[simp] theorem State.setStk_priv (s : State) (t : SysTick) : (s.setStk t).priv = s.priv := rfl
@[simp] theorem State.setStk_csr (s : State) (t : SysTick) : (s.setStk t).csr = s.csr := rfl
@[simp] theorem State.setStk_mem (s : State) (t : SysTick) : (s.setStk t).mem = s.mem := rfl
@[simp] theorem State.setStk_stale (s : State) (t : SysTick) : (s.setStk t).stale = s.stale := rfl
@[simp] theorem State.setStk_resv (s : State) (t : SysTick) : (s.setStk t).resv = s.resv := rfl
@[simp] theorem State.setStk_pfic (s : State) (t : SysTick) :
    (s.setStk t).pfic = { s.pfic with pend := s.pfic.pend ||| (levelRequests s.cfg.model t &&& ~~~levelRequests s.cfg.model s.stk) } := rfl
@[simp] theorem State.setStk_stk (s : State) (t : SysTick) : (s.setStk t).stk = t := rfl
@[simp] theorem State.setStk_hpe (s : State) (t : SysTick) : (s.setStk t).hpe = s.hpe := rfl
@[simp] theorem State.setStk_handlers (s : State) (t : SysTick) : (s.setStk t).handlers = s.handlers := rfl
@[simp] theorem State.setStk_sleep (s : State) (t : SysTick) : (s.setStk t).sleep = s.sleep := rfl
@[simp] theorem State.setStk_locked (s : State) (t : SysTick) : (s.setStk t).locked = s.locked := rfl
@[simp] theorem State.setStk_dbg (s : State) (t : SysTick) : (s.setStk t).dbg = s.dbg := rfl
@[simp] theorem State.setStk_dm (s : State) (t : SysTick) : (s.setStk t).dm = s.dm := rfl
@[simp] theorem State.setStk_inputs (s : State) (t : SysTick) : (s.setStk t).inputs = s.inputs := rfl
@[simp] theorem State.setStk_freeIndex (s : State) (t : SysTick) : (s.setStk t).freeIndex = s.freeIndex := rfl

@[simp] theorem State.setCsr_cfg (s : State) (c : Csrs) : (s.setCsr c).cfg = s.cfg := rfl
@[simp] theorem State.setCsr_regs (s : State) (c : Csrs) : (s.setCsr c).regs = s.regs := rfl
@[simp] theorem State.setCsr_pc (s : State) (c : Csrs) : (s.setCsr c).pc = s.pc := rfl
@[simp] theorem State.setCsr_priv (s : State) (c : Csrs) : (s.setCsr c).priv = s.priv := rfl
@[simp] theorem State.setCsr_csr (s : State) (c : Csrs) : (s.setCsr c).csr = c := rfl
@[simp] theorem State.setCsr_mem (s : State) (c : Csrs) : (s.setCsr c).mem = s.mem := rfl
@[simp] theorem State.setCsr_stale (s : State) (c : Csrs) : (s.setCsr c).stale = s.stale := rfl
@[simp] theorem State.setCsr_resv (s : State) (c : Csrs) : (s.setCsr c).resv = s.resv := rfl
@[simp] theorem State.setCsr_pfic (s : State) (c : Csrs) : (s.setCsr c).pfic = s.pfic := rfl
@[simp] theorem State.setCsr_stk (s : State) (c : Csrs) : (s.setCsr c).stk = s.stk := rfl
@[simp] theorem State.setCsr_hpe (s : State) (c : Csrs) : (s.setCsr c).hpe = s.hpe := rfl
@[simp] theorem State.setCsr_handlers (s : State) (c : Csrs) : (s.setCsr c).handlers = s.handlers := rfl
@[simp] theorem State.setCsr_sleep (s : State) (c : Csrs) : (s.setCsr c).sleep = s.sleep := rfl
@[simp] theorem State.setCsr_eventLatch (s : State) (c : Csrs) : (s.setCsr c).eventLatch = s.eventLatch := rfl
@[simp] theorem State.setCsr_locked (s : State) (c : Csrs) : (s.setCsr c).locked = s.locked := rfl
@[simp] theorem State.setCsr_dbg (s : State) (c : Csrs) : (s.setCsr c).dbg = s.dbg := rfl
@[simp] theorem State.setCsr_dm (s : State) (c : Csrs) : (s.setCsr c).dm = s.dm := rfl
@[simp] theorem State.setCsr_inputs (s : State) (c : Csrs) : (s.setCsr c).inputs = s.inputs := rfl
@[simp] theorem State.setCsr_freeIndex (s : State) (c : Csrs) : (s.setCsr c).freeIndex = s.freeIndex := rfl

@[simp] theorem State.setDm_cfg (s : State) (d : DebugModule) : (s.setDm d).cfg = s.cfg := rfl
@[simp] theorem State.setDm_regs (s : State) (d : DebugModule) : (s.setDm d).regs = s.regs := rfl
@[simp] theorem State.setDm_pc (s : State) (d : DebugModule) : (s.setDm d).pc = s.pc := rfl
@[simp] theorem State.setDm_priv (s : State) (d : DebugModule) : (s.setDm d).priv = s.priv := rfl
@[simp] theorem State.setDm_csr (s : State) (d : DebugModule) : (s.setDm d).csr = s.csr := rfl
@[simp] theorem State.setDm_mem (s : State) (d : DebugModule) : (s.setDm d).mem = s.mem := rfl
@[simp] theorem State.setDm_stale (s : State) (d : DebugModule) : (s.setDm d).stale = s.stale := rfl
@[simp] theorem State.setDm_resv (s : State) (d : DebugModule) : (s.setDm d).resv = s.resv := rfl
@[simp] theorem State.setDm_pfic (s : State) (d : DebugModule) : (s.setDm d).pfic = s.pfic := rfl
@[simp] theorem State.setDm_stk (s : State) (d : DebugModule) : (s.setDm d).stk = s.stk := rfl
@[simp] theorem State.setDm_hpe (s : State) (d : DebugModule) : (s.setDm d).hpe = s.hpe := rfl
@[simp] theorem State.setDm_handlers (s : State) (d : DebugModule) : (s.setDm d).handlers = s.handlers := rfl
@[simp] theorem State.setDm_sleep (s : State) (d : DebugModule) : (s.setDm d).sleep = s.sleep := rfl
@[simp] theorem State.setDm_eventLatch (s : State) (d : DebugModule) : (s.setDm d).eventLatch = s.eventLatch := rfl
@[simp] theorem State.setDm_locked (s : State) (d : DebugModule) : (s.setDm d).locked = s.locked := rfl
@[simp] theorem State.setDm_dbg (s : State) (d : DebugModule) : (s.setDm d).dbg = s.dbg := rfl
@[simp] theorem State.setDm_dm (s : State) (d : DebugModule) : (s.setDm d).dm = d := rfl
@[simp] theorem State.setDm_inputs (s : State) (d : DebugModule) : (s.setDm d).inputs = s.inputs := rfl
@[simp] theorem State.setDm_freeIndex (s : State) (d : DebugModule) : (s.setDm d).freeIndex = s.freeIndex := rfl

@[simp] theorem State.writeBytes_cfg (s : State) (cells : List Host.Cell) : (s.writeBytes cells).cfg = s.cfg := rfl
@[simp] theorem State.writeBytes_regs (s : State) (cells : List Host.Cell) : (s.writeBytes cells).regs = s.regs := rfl
@[simp] theorem State.writeBytes_pc (s : State) (cells : List Host.Cell) : (s.writeBytes cells).pc = s.pc := rfl
@[simp] theorem State.writeBytes_priv (s : State) (cells : List Host.Cell) : (s.writeBytes cells).priv = s.priv := rfl
@[simp] theorem State.writeBytes_csr (s : State) (cells : List Host.Cell) : (s.writeBytes cells).csr = s.csr := rfl
@[simp] theorem State.writeBytes_mem (s : State) (cells : List Host.Cell) :
    (s.writeBytes cells).mem = Memory.writeCells s.mem cells := rfl
@[simp] theorem State.writeBytes_stale (s : State) (cells : List Host.Cell) :
    (s.writeBytes cells).stale = overwritten s.mem cells ++ s.stale := rfl
@[simp] theorem State.writeBytes_resv (s : State) (cells : List Host.Cell) : (s.writeBytes cells).resv = s.resv := rfl
@[simp] theorem State.writeBytes_pfic (s : State) (cells : List Host.Cell) : (s.writeBytes cells).pfic = s.pfic := rfl
@[simp] theorem State.writeBytes_stk (s : State) (cells : List Host.Cell) : (s.writeBytes cells).stk = s.stk := rfl
@[simp] theorem State.writeBytes_hpe (s : State) (cells : List Host.Cell) : (s.writeBytes cells).hpe = s.hpe := rfl
@[simp] theorem State.writeBytes_handlers (s : State) (cells : List Host.Cell) :
    (s.writeBytes cells).handlers = s.handlers := rfl
@[simp] theorem State.writeBytes_sleep (s : State) (cells : List Host.Cell) :
    (s.writeBytes cells).sleep = s.sleep := rfl
@[simp] theorem State.writeBytes_eventLatch (s : State) (cells : List Host.Cell) :
    (s.writeBytes cells).eventLatch = s.eventLatch := rfl
@[simp] theorem State.writeBytes_locked (s : State) (cells : List Host.Cell) :
    (s.writeBytes cells).locked = s.locked := rfl
@[simp] theorem State.writeBytes_dbg (s : State) (cells : List Host.Cell) : (s.writeBytes cells).dbg = s.dbg := rfl
@[simp] theorem State.writeBytes_dm (s : State) (cells : List Host.Cell) : (s.writeBytes cells).dm = s.dm := rfl
@[simp] theorem State.writeBytes_inputs (s : State) (cells : List Host.Cell) :
    (s.writeBytes cells).inputs = s.inputs := rfl
@[simp] theorem State.writeBytes_freeIndex (s : State) (cells : List Host.Cell) :
    (s.writeBytes cells).freeIndex = s.freeIndex := rfl

@[simp] theorem State.storeMemory_cfg (s : State) (w : Width) (a v : Word) : (s.storeMemory w a v).cfg = s.cfg := rfl
@[simp] theorem State.storeMemory_regs (s : State) (w : Width) (a v : Word) :
    (s.storeMemory w a v).regs = s.regs := rfl
@[simp] theorem State.storeMemory_pc (s : State) (w : Width) (a v : Word) : (s.storeMemory w a v).pc = s.pc := rfl
@[simp] theorem State.storeMemory_priv (s : State) (w : Width) (a v : Word) :
    (s.storeMemory w a v).priv = s.priv := rfl
@[simp] theorem State.storeMemory_csr (s : State) (w : Width) (a v : Word) : (s.storeMemory w a v).csr = s.csr := rfl
@[simp] theorem State.storeMemory_mem (s : State) (w : Width) (a v : Word) :
    (s.storeMemory w a v).mem = Memory.store s.mem w a v := rfl
@[simp] theorem State.storeMemory_stale (s : State) (w : Width) (a v : Word) :
    (s.storeMemory w a v).stale = overwritten s.mem (storeCells w a v) ++ s.stale := rfl
@[simp] theorem State.storeMemory_resv (s : State) (w : Width) (a v : Word) :
    (s.storeMemory w a v).resv = (s.storedAt a).resv := rfl
@[simp] theorem State.storeMemory_pfic (s : State) (w : Width) (a v : Word) :
    (s.storeMemory w a v).pfic = s.pfic := rfl
@[simp] theorem State.storeMemory_stk (s : State) (w : Width) (a v : Word) : (s.storeMemory w a v).stk = s.stk := rfl
@[simp] theorem State.storeMemory_hpe (s : State) (w : Width) (a v : Word) : (s.storeMemory w a v).hpe = s.hpe := rfl
@[simp] theorem State.storeMemory_handlers (s : State) (w : Width) (a v : Word) :
    (s.storeMemory w a v).handlers = s.handlers := rfl
@[simp] theorem State.storeMemory_sleep (s : State) (w : Width) (a v : Word) :
    (s.storeMemory w a v).sleep = s.sleep := rfl
@[simp] theorem State.storeMemory_eventLatch (s : State) (w : Width) (a v : Word) :
    (s.storeMemory w a v).eventLatch = s.eventLatch := rfl
@[simp] theorem State.storeMemory_locked (s : State) (w : Width) (a v : Word) :
    (s.storeMemory w a v).locked = s.locked := rfl
@[simp] theorem State.storeMemory_dbg (s : State) (w : Width) (a v : Word) : (s.storeMemory w a v).dbg = s.dbg := rfl
@[simp] theorem State.storeMemory_dm (s : State) (w : Width) (a v : Word) : (s.storeMemory w a v).dm = s.dm := rfl
@[simp] theorem State.storeMemory_inputs (s : State) (w : Width) (a v : Word) :
    (s.storeMemory w a v).inputs = s.inputs := rfl
@[simp] theorem State.storeMemory_freeIndex (s : State) (w : Width) (a v : Word) :
    (s.storeMemory w a v).freeIndex = s.freeIndex := rfl

@[simp] theorem State.storedAt_cfg (s : State) (a : Word) : (s.storedAt a).cfg = s.cfg := rfl
@[simp] theorem State.storedAt_regs (s : State) (a : Word) : (s.storedAt a).regs = s.regs := rfl
@[simp] theorem State.storedAt_pc (s : State) (a : Word) : (s.storedAt a).pc = s.pc := rfl
@[simp] theorem State.storedAt_priv (s : State) (a : Word) : (s.storedAt a).priv = s.priv := rfl
@[simp] theorem State.storedAt_csr (s : State) (a : Word) : (s.storedAt a).csr = s.csr := rfl
@[simp] theorem State.storedAt_mem (s : State) (a : Word) : (s.storedAt a).mem = s.mem := rfl
@[simp] theorem State.storedAt_stale (s : State) (a : Word) : (s.storedAt a).stale = s.stale := rfl
@[simp] theorem State.storedAt_resv (s : State) (a : Word) :
    (s.storedAt a).resv = if s.dbg = .progbuf then dropWord s.resv a else doubtWord s.resv a := rfl
@[simp] theorem State.storedAt_pfic (s : State) (a : Word) : (s.storedAt a).pfic = s.pfic := rfl
@[simp] theorem State.storedAt_stk (s : State) (a : Word) : (s.storedAt a).stk = s.stk := rfl
@[simp] theorem State.storedAt_hpe (s : State) (a : Word) : (s.storedAt a).hpe = s.hpe := rfl
@[simp] theorem State.storedAt_handlers (s : State) (a : Word) : (s.storedAt a).handlers = s.handlers := rfl
@[simp] theorem State.storedAt_sleep (s : State) (a : Word) : (s.storedAt a).sleep = s.sleep := rfl
@[simp] theorem State.storedAt_eventLatch (s : State) (a : Word) : (s.storedAt a).eventLatch = s.eventLatch := rfl
@[simp] theorem State.storedAt_locked (s : State) (a : Word) : (s.storedAt a).locked = s.locked := rfl
@[simp] theorem State.storedAt_dbg (s : State) (a : Word) : (s.storedAt a).dbg = s.dbg := rfl
@[simp] theorem State.storedAt_dm (s : State) (a : Word) : (s.storedAt a).dm = s.dm := rfl
@[simp] theorem State.storedAt_inputs (s : State) (a : Word) : (s.storedAt a).inputs = s.inputs := rfl
@[simp] theorem State.storedAt_freeIndex (s : State) (a : Word) : (s.storedAt a).freeIndex = s.freeIndex := rfl

@[simp] theorem State.doubtReservation_cfg (s : State) : (s.doubtReservation).cfg = s.cfg := rfl
@[simp] theorem State.doubtReservation_regs (s : State) : (s.doubtReservation).regs = s.regs := rfl
@[simp] theorem State.doubtReservation_pc (s : State) : (s.doubtReservation).pc = s.pc := rfl
@[simp] theorem State.doubtReservation_priv (s : State) : (s.doubtReservation).priv = s.priv := rfl
@[simp] theorem State.doubtReservation_csr (s : State) : (s.doubtReservation).csr = s.csr := rfl
@[simp] theorem State.doubtReservation_mem (s : State) : (s.doubtReservation).mem = s.mem := rfl
@[simp] theorem State.doubtReservation_stale (s : State) : (s.doubtReservation).stale = s.stale := rfl
@[simp] theorem State.doubtReservation_resv (s : State) :
    (s.doubtReservation).resv = s.resv.map fun r => { r with certain := false } := rfl
@[simp] theorem State.doubtReservation_pfic (s : State) : (s.doubtReservation).pfic = s.pfic := rfl
@[simp] theorem State.doubtReservation_stk (s : State) : (s.doubtReservation).stk = s.stk := rfl
@[simp] theorem State.doubtReservation_hpe (s : State) : (s.doubtReservation).hpe = s.hpe := rfl
@[simp] theorem State.doubtReservation_handlers (s : State) : (s.doubtReservation).handlers = s.handlers := rfl
@[simp] theorem State.doubtReservation_sleep (s : State) : (s.doubtReservation).sleep = s.sleep := rfl
@[simp] theorem State.doubtReservation_eventLatch (s : State) : (s.doubtReservation).eventLatch = s.eventLatch := rfl
@[simp] theorem State.doubtReservation_locked (s : State) : (s.doubtReservation).locked = s.locked := rfl
@[simp] theorem State.doubtReservation_dbg (s : State) : (s.doubtReservation).dbg = s.dbg := rfl
@[simp] theorem State.doubtReservation_dm (s : State) : (s.doubtReservation).dm = s.dm := rfl
@[simp] theorem State.doubtReservation_inputs (s : State) : (s.doubtReservation).inputs = s.inputs := rfl
@[simp] theorem State.doubtReservation_freeIndex (s : State) : (s.doubtReservation).freeIndex = s.freeIndex := rfl

@[simp] theorem State.hpePush_cfg (s : State) : (s.hpePush).cfg = s.cfg := rfl
@[simp] theorem State.hpePush_regs (s : State) : (s.hpePush).regs = s.regs := rfl
@[simp] theorem State.hpePush_pc (s : State) : (s.hpePush).pc = s.pc := rfl
@[simp] theorem State.hpePush_priv (s : State) : (s.hpePush).priv = s.priv := rfl
@[simp] theorem State.hpePush_csr (s : State) : (s.hpePush).csr = s.csr := rfl
@[simp] theorem State.hpePush_mem (s : State) : (s.hpePush).mem = s.mem := rfl
@[simp] theorem State.hpePush_stale (s : State) : (s.hpePush).stale = s.stale := rfl
@[simp] theorem State.hpePush_resv (s : State) : (s.hpePush).resv = s.resv := rfl
@[simp] theorem State.hpePush_pfic (s : State) : (s.hpePush).pfic = s.pfic := rfl
@[simp] theorem State.hpePush_stk (s : State) : (s.hpePush).stk = s.stk := rfl
@[simp] theorem State.hpePush_hpe (s : State) :
    (s.hpePush).hpe = s.hpe.setIfInBounds s.level (if s.hpeEnabled then .saved s.hpeSave else .empty) := rfl
@[simp] theorem State.hpePush_handlers (s : State) : (s.hpePush).handlers = s.handlers := rfl
@[simp] theorem State.hpePush_sleep (s : State) : (s.hpePush).sleep = s.sleep := rfl
@[simp] theorem State.hpePush_eventLatch (s : State) : (s.hpePush).eventLatch = s.eventLatch := rfl
@[simp] theorem State.hpePush_locked (s : State) : (s.hpePush).locked = s.locked := rfl
@[simp] theorem State.hpePush_dbg (s : State) : (s.hpePush).dbg = s.dbg := rfl
@[simp] theorem State.hpePush_dm (s : State) : (s.hpePush).dm = s.dm := rfl
@[simp] theorem State.hpePush_inputs (s : State) : (s.hpePush).inputs = s.inputs := rfl
@[simp] theorem State.hpePush_freeIndex (s : State) : (s.hpePush).freeIndex = s.freeIndex := rfl

@[simp] theorem State.settleHpe_cfg (s : State) (b : Bool) : (s.settleHpe b).cfg = s.cfg := rfl
@[simp] theorem State.settleHpe_regs (s : State) (b : Bool) : (s.settleHpe b).regs = s.regs := rfl
@[simp] theorem State.settleHpe_pc (s : State) (b : Bool) : (s.settleHpe b).pc = s.pc := rfl
@[simp] theorem State.settleHpe_priv (s : State) (b : Bool) : (s.settleHpe b).priv = s.priv := rfl
@[simp] theorem State.settleHpe_csr (s : State) (b : Bool) : (s.settleHpe b).csr = s.csr := rfl
@[simp] theorem State.settleHpe_mem (s : State) (b : Bool) : (s.settleHpe b).mem = s.mem := rfl
@[simp] theorem State.settleHpe_stale (s : State) (b : Bool) : (s.settleHpe b).stale = s.stale := rfl
@[simp] theorem State.settleHpe_resv (s : State) (b : Bool) : (s.settleHpe b).resv = s.resv := rfl
@[simp] theorem State.settleHpe_pfic (s : State) (b : Bool) : (s.settleHpe b).pfic = s.pfic := rfl
@[simp] theorem State.settleHpe_stk (s : State) (b : Bool) : (s.settleHpe b).stk = s.stk := rfl
@[simp] theorem State.settleHpe_hpe (s : State) (b : Bool) :
    (s.settleHpe b).hpe = if s.hpeEnabled = b then s.hpe else unbalance s.hpe s.level := rfl
@[simp] theorem State.settleHpe_handlers (s : State) (b : Bool) : (s.settleHpe b).handlers = s.handlers := rfl
@[simp] theorem State.settleHpe_sleep (s : State) (b : Bool) : (s.settleHpe b).sleep = s.sleep := rfl
@[simp] theorem State.settleHpe_eventLatch (s : State) (b : Bool) : (s.settleHpe b).eventLatch = s.eventLatch := rfl
@[simp] theorem State.settleHpe_locked (s : State) (b : Bool) : (s.settleHpe b).locked = s.locked := rfl
@[simp] theorem State.settleHpe_dbg (s : State) (b : Bool) : (s.settleHpe b).dbg = s.dbg := rfl
@[simp] theorem State.settleHpe_dm (s : State) (b : Bool) : (s.settleHpe b).dm = s.dm := rfl
@[simp] theorem State.settleHpe_inputs (s : State) (b : Bool) : (s.settleHpe b).inputs = s.inputs := rfl
@[simp] theorem State.settleHpe_freeIndex (s : State) (b : Bool) : (s.settleHpe b).freeIndex = s.freeIndex := rfl
@[simp] theorem unbalance_getElem (h : Vector HpeSlot 2) (n k : Nat) (hk : k < 2) :
    (unbalance h n)[k] = if k < n then .unbalanced else h[k] :=
  match k, hk with
  | 0, _ => rfl
  | 1, _ => rfl

@[simp] theorem State.unpend_cfg (s : State) (mask : BitVec 256) : (s.unpend mask).cfg = s.cfg := rfl
@[simp] theorem State.unpend_regs (s : State) (mask : BitVec 256) : (s.unpend mask).regs = s.regs := rfl
@[simp] theorem State.unpend_pc (s : State) (mask : BitVec 256) : (s.unpend mask).pc = s.pc := rfl
@[simp] theorem State.unpend_priv (s : State) (mask : BitVec 256) : (s.unpend mask).priv = s.priv := rfl
@[simp] theorem State.unpend_csr (s : State) (mask : BitVec 256) : (s.unpend mask).csr = s.csr := rfl
@[simp] theorem State.unpend_mem (s : State) (mask : BitVec 256) : (s.unpend mask).mem = s.mem := rfl
@[simp] theorem State.unpend_stale (s : State) (mask : BitVec 256) : (s.unpend mask).stale = s.stale := rfl
@[simp] theorem State.unpend_resv (s : State) (mask : BitVec 256) : (s.unpend mask).resv = s.resv := rfl
@[simp] theorem State.unpend_pfic (s : State) (mask : BitVec 256) :
    (s.unpend mask).pfic = { s.pfic with pend := s.pfic.pend &&& ~~~mask } := rfl
@[simp] theorem State.unpend_stk (s : State) (mask : BitVec 256) : (s.unpend mask).stk = s.stk := rfl
@[simp] theorem State.unpend_hpe (s : State) (mask : BitVec 256) : (s.unpend mask).hpe = s.hpe := rfl
@[simp] theorem State.unpend_handlers (s : State) (mask : BitVec 256) : (s.unpend mask).handlers = s.handlers := rfl
@[simp] theorem State.unpend_sleep (s : State) (mask : BitVec 256) : (s.unpend mask).sleep = s.sleep := rfl
@[simp] theorem State.unpend_eventLatch (s : State) (mask : BitVec 256) :
    (s.unpend mask).eventLatch = s.eventLatch := rfl
@[simp] theorem State.unpend_locked (s : State) (mask : BitVec 256) : (s.unpend mask).locked = s.locked := rfl
@[simp] theorem State.unpend_dbg (s : State) (mask : BitVec 256) : (s.unpend mask).dbg = s.dbg := rfl
@[simp] theorem State.unpend_dm (s : State) (mask : BitVec 256) : (s.unpend mask).dm = s.dm := rfl
@[simp] theorem State.unpend_inputs (s : State) (mask : BitVec 256) : (s.unpend mask).inputs = s.inputs := rfl
@[simp] theorem State.unpend_freeIndex (s : State) (mask : BitVec 256) :
    (s.unpend mask).freeIndex = s.freeIndex := rfl

@[simp] theorem State.enterDebug_cfg (s : State) (cause : BitVec 3) (a : Word) :
    (s.enterDebug cause a).cfg = s.cfg := rfl
@[simp] theorem State.enterDebug_regs (s : State) (cause : BitVec 3) (a : Word) :
    (s.enterDebug cause a).regs = s.regs := rfl
@[simp] theorem State.enterDebug_pc (s : State) (cause : BitVec 3) (a : Word) :
    (s.enterDebug cause a).pc = s.pc := rfl
@[simp] theorem State.enterDebug_priv (s : State) (cause : BitVec 3) (a : Word) :
    (s.enterDebug cause a).priv = s.priv := rfl
@[simp] theorem State.enterDebug_csr (s : State) (cause : BitVec 3) (a : Word) :
    (s.enterDebug cause a).csr = { s.csr with dpc := a, dcsr := dcsrOnEntry s.csr.dcsr cause s.priv } := rfl
@[simp] theorem State.enterDebug_mem (s : State) (cause : BitVec 3) (a : Word) :
    (s.enterDebug cause a).mem = s.mem := rfl
@[simp] theorem State.enterDebug_stale (s : State) (cause : BitVec 3) (a : Word) :
    (s.enterDebug cause a).stale = s.stale := rfl
@[simp] theorem State.enterDebug_resv (s : State) (cause : BitVec 3) (a : Word) :
    (s.enterDebug cause a).resv = s.resv := rfl
@[simp] theorem State.enterDebug_pfic (s : State) (cause : BitVec 3) (a : Word) :
    (s.enterDebug cause a).pfic = s.pfic := rfl
@[simp] theorem State.enterDebug_stk (s : State) (cause : BitVec 3) (a : Word) :
    (s.enterDebug cause a).stk = s.stk := rfl
@[simp] theorem State.enterDebug_hpe (s : State) (cause : BitVec 3) (a : Word) :
    (s.enterDebug cause a).hpe = s.hpe := rfl
@[simp] theorem State.enterDebug_handlers (s : State) (cause : BitVec 3) (a : Word) :
    (s.enterDebug cause a).handlers = s.handlers := rfl
@[simp] theorem State.enterDebug_sleep (s : State) (cause : BitVec 3) (a : Word) :
    (s.enterDebug cause a).sleep = .awake := rfl
@[simp] theorem State.enterDebug_eventLatch (s : State) (cause : BitVec 3) (a : Word) :
    (s.enterDebug cause a).eventLatch = s.eventLatch := rfl
@[simp] theorem State.enterDebug_locked (s : State) (cause : BitVec 3) (a : Word) :
    (s.enterDebug cause a).locked = s.locked := rfl
@[simp] theorem State.enterDebug_dbg (s : State) (cause : BitVec 3) (a : Word) :
    (s.enterDebug cause a).dbg = .halted := rfl
@[simp] theorem State.enterDebug_dm (s : State) (cause : BitVec 3) (a : Word) :
    (s.enterDebug cause a).dm = s.dm := rfl
@[simp] theorem State.enterDebug_inputs (s : State) (cause : BitVec 3) (a : Word) :
    (s.enterDebug cause a).inputs = s.inputs := rfl
@[simp] theorem State.enterDebug_freeIndex (s : State) (cause : BitVec 3) (a : Word) :
    (s.enterDebug cause a).freeIndex = s.freeIndex := rfl

@[simp] theorem State.endProgbuf_cfg (s : State) (err : BitVec 3) : (s.endProgbuf err).cfg = s.cfg := rfl
@[simp] theorem State.endProgbuf_regs (s : State) (err : BitVec 3) : (s.endProgbuf err).regs = s.regs := rfl
@[simp] theorem State.endProgbuf_pc (s : State) (err : BitVec 3) : (s.endProgbuf err).pc = s.pc := rfl
@[simp] theorem State.endProgbuf_priv (s : State) (err : BitVec 3) : (s.endProgbuf err).priv = s.priv := rfl
@[simp] theorem State.endProgbuf_csr (s : State) (err : BitVec 3) : (s.endProgbuf err).csr = s.csr := rfl
@[simp] theorem State.endProgbuf_mem (s : State) (err : BitVec 3) : (s.endProgbuf err).mem = s.mem := rfl
@[simp] theorem State.endProgbuf_stale (s : State) (err : BitVec 3) : (s.endProgbuf err).stale = s.stale := rfl
@[simp] theorem State.endProgbuf_resv (s : State) (err : BitVec 3) : (s.endProgbuf err).resv = s.resv := rfl
@[simp] theorem State.endProgbuf_pfic (s : State) (err : BitVec 3) : (s.endProgbuf err).pfic = s.pfic := rfl
@[simp] theorem State.endProgbuf_stk (s : State) (err : BitVec 3) : (s.endProgbuf err).stk = s.stk := rfl
@[simp] theorem State.endProgbuf_hpe (s : State) (err : BitVec 3) : (s.endProgbuf err).hpe = s.hpe := rfl
@[simp] theorem State.endProgbuf_handlers (s : State) (err : BitVec 3) :
    (s.endProgbuf err).handlers = s.handlers := rfl
@[simp] theorem State.endProgbuf_sleep (s : State) (err : BitVec 3) : (s.endProgbuf err).sleep = s.sleep := rfl
@[simp] theorem State.endProgbuf_eventLatch (s : State) (err : BitVec 3) :
    (s.endProgbuf err).eventLatch = s.eventLatch := rfl
@[simp] theorem State.endProgbuf_locked (s : State) (err : BitVec 3) : (s.endProgbuf err).locked = s.locked := rfl
@[simp] theorem State.endProgbuf_dbg (s : State) (err : BitVec 3) : (s.endProgbuf err).dbg = .halted := rfl
@[simp] theorem State.endProgbuf_dm (s : State) (err : BitVec 3) :
    (s.endProgbuf err).dm = { s.dm with cmderr := if s.dm.cmderr = 0 then err else s.dm.cmderr } := rfl
@[simp] theorem State.endProgbuf_inputs (s : State) (err : BitVec 3) : (s.endProgbuf err).inputs = s.inputs := rfl
@[simp] theorem State.endProgbuf_freeIndex (s : State) (err : BitVec 3) :
    (s.endProgbuf err).freeIndex = s.freeIndex := rfl

@[simp] theorem State.systemReset_cfg (s : State) : (s.systemReset).cfg = s.cfg := rfl
@[simp] theorem State.systemReset_regs (s : State) : (s.systemReset).regs = (State.resetWith s.cfg).regs := rfl
@[simp] theorem State.systemReset_pc (s : State) : (s.systemReset).pc = (State.resetWith s.cfg).pc := rfl
@[simp] theorem State.systemReset_priv (s : State) : (s.systemReset).priv = (State.resetWith s.cfg).priv := rfl
@[simp] theorem State.systemReset_csr (s : State) : (s.systemReset).csr = (State.resetWith s.cfg).csr := rfl
@[simp] theorem State.systemReset_mem (s : State) : (s.systemReset).mem = s.mem := rfl
@[simp] theorem State.systemReset_stale (s : State) : (s.systemReset).stale = (State.resetWith s.cfg).stale := rfl
@[simp] theorem State.systemReset_resv (s : State) : (s.systemReset).resv = (State.resetWith s.cfg).resv := rfl
@[simp] theorem State.systemReset_pfic (s : State) : (s.systemReset).pfic = (State.resetWith s.cfg).pfic := rfl
@[simp] theorem State.systemReset_stk (s : State) : (s.systemReset).stk = (State.resetWith s.cfg).stk := rfl
@[simp] theorem State.systemReset_hpe (s : State) : (s.systemReset).hpe = (State.resetWith s.cfg).hpe := rfl
@[simp] theorem State.systemReset_handlers (s : State) :
    (s.systemReset).handlers = (State.resetWith s.cfg).handlers := rfl
@[simp] theorem State.systemReset_sleep (s : State) : (s.systemReset).sleep = (State.resetWith s.cfg).sleep := rfl
@[simp] theorem State.systemReset_eventLatch (s : State) :
    (s.systemReset).eventLatch = (State.resetWith s.cfg).eventLatch := rfl
@[simp] theorem State.systemReset_locked (s : State) : (s.systemReset).locked = (State.resetWith s.cfg).locked := rfl
@[simp] theorem State.systemReset_dbg (s : State) : (s.systemReset).dbg = (State.resetWith s.cfg).dbg := rfl
@[simp] theorem State.systemReset_dm (s : State) : (s.systemReset).dm = (State.resetWith s.cfg).dm := rfl
@[simp] theorem State.systemReset_inputs (s : State) : (s.systemReset).inputs = s.inputs := rfl
@[simp] theorem State.systemReset_freeIndex (s : State) : (s.systemReset).freeIndex = s.freeIndex := rfl

@[simp] theorem State.resetWith_cfg (c : Config) : (State.resetWith c).cfg = c := rfl
@[simp] theorem State.resetWith_regs (c : Config) : (State.resetWith c).regs = Vector.replicate 32 0 := rfl
@[simp] theorem State.resetWith_pc (c : Config) : (State.resetWith c).pc = c.resetPc &&& 0xFFFFFFFE := rfl
@[simp] theorem State.resetWith_priv (c : Config) : (State.resetWith c).priv = .machine := rfl
@[simp] theorem State.resetWith_csr (c : Config) : (State.resetWith c).csr = Csrs.reset := rfl
@[simp] theorem State.resetWith_mem (c : Config) : (State.resetWith c).mem = [] := rfl
@[simp] theorem State.resetWith_stale (c : Config) : (State.resetWith c).stale = [] := rfl
@[simp] theorem State.resetWith_resv (c : Config) : (State.resetWith c).resv = none := rfl
@[simp] theorem State.resetWith_pfic (c : Config) : (State.resetWith c).pfic = Pfic.reset := rfl
@[simp] theorem State.resetWith_stk (c : Config) : (State.resetWith c).stk = SysTick.reset := rfl
@[simp] theorem State.resetWith_hpe (c : Config) : (State.resetWith c).hpe = Vector.replicate 2 .empty := rfl
@[simp] theorem State.resetWith_handlers (c : Config) : (State.resetWith c).handlers = [] := rfl
@[simp] theorem State.resetWith_sleep (c : Config) : (State.resetWith c).sleep = .awake := rfl
@[simp] theorem State.resetWith_eventLatch (c : Config) : (State.resetWith c).eventLatch = false := rfl
@[simp] theorem State.resetWith_locked (c : Config) : (State.resetWith c).locked = false := rfl
@[simp] theorem State.resetWith_dbg (c : Config) : (State.resetWith c).dbg = .running := rfl
@[simp] theorem State.resetWith_dm (c : Config) : (State.resetWith c).dm = DebugModule.reset := rfl
@[simp] theorem State.resetWith_inputs (c : Config) : (State.resetWith c).inputs = [] := rfl
@[simp] theorem State.resetWith_freeIndex (c : Config) : (State.resetWith c).freeIndex = 0 := rfl

@[simp] theorem State.writeReg_cfg (s : State) (r : Reg) (v : Word) : (s.writeReg r v).cfg = s.cfg := by
  unfold State.writeReg; split <;> rfl
@[simp] theorem State.writeReg_pc (s : State) (r : Reg) (v : Word) : (s.writeReg r v).pc = s.pc := by
  unfold State.writeReg; split <;> rfl
@[simp] theorem State.writeReg_priv (s : State) (r : Reg) (v : Word) : (s.writeReg r v).priv = s.priv := by
  unfold State.writeReg; split <;> rfl
@[simp] theorem State.writeReg_csr (s : State) (r : Reg) (v : Word) : (s.writeReg r v).csr = s.csr := by
  unfold State.writeReg; split <;> rfl
@[simp] theorem State.writeReg_mem (s : State) (r : Reg) (v : Word) : (s.writeReg r v).mem = s.mem := by
  unfold State.writeReg; split <;> rfl
@[simp] theorem State.writeReg_stale (s : State) (r : Reg) (v : Word) : (s.writeReg r v).stale = s.stale := by
  unfold State.writeReg; split <;> rfl
@[simp] theorem State.writeReg_resv (s : State) (r : Reg) (v : Word) : (s.writeReg r v).resv = s.resv := by
  unfold State.writeReg; split <;> rfl
@[simp] theorem State.writeReg_pfic (s : State) (r : Reg) (v : Word) : (s.writeReg r v).pfic = s.pfic := by
  unfold State.writeReg; split <;> rfl
@[simp] theorem State.writeReg_stk (s : State) (r : Reg) (v : Word) : (s.writeReg r v).stk = s.stk := by
  unfold State.writeReg; split <;> rfl
@[simp] theorem State.writeReg_hpe (s : State) (r : Reg) (v : Word) : (s.writeReg r v).hpe = s.hpe := by
  unfold State.writeReg; split <;> rfl
@[simp] theorem State.writeReg_handlers (s : State) (r : Reg) (v : Word) : (s.writeReg r v).handlers = s.handlers := by
  unfold State.writeReg; split <;> rfl
@[simp] theorem State.writeReg_sleep (s : State) (r : Reg) (v : Word) : (s.writeReg r v).sleep = s.sleep := by
  unfold State.writeReg; split <;> rfl
@[simp] theorem State.writeReg_eventLatch (s : State) (r : Reg) (v : Word) : (s.writeReg r v).eventLatch = s.eventLatch := by
  unfold State.writeReg; split <;> rfl
@[simp] theorem State.writeReg_locked (s : State) (r : Reg) (v : Word) : (s.writeReg r v).locked = s.locked := by
  unfold State.writeReg; split <;> rfl
@[simp] theorem State.writeReg_dbg (s : State) (r : Reg) (v : Word) : (s.writeReg r v).dbg = s.dbg := by
  unfold State.writeReg; split <;> rfl
@[simp] theorem State.writeReg_dm (s : State) (r : Reg) (v : Word) : (s.writeReg r v).dm = s.dm := by
  unfold State.writeReg; split <;> rfl
@[simp] theorem State.writeReg_inputs (s : State) (r : Reg) (v : Word) : (s.writeReg r v).inputs = s.inputs := by
  unfold State.writeReg; split <;> rfl
@[simp] theorem State.writeReg_freeIndex (s : State) (r : Reg) (v : Word) : (s.writeReg r v).freeIndex = s.freeIndex := by
  unfold State.writeReg; split <;> rfl

@[simp] theorem State.setPrio_cfg (s : State) (n : Nat) (b : Byte) : (s.setPrio n b).cfg = s.cfg := by
  unfold State.setPrio; split <;> rfl
@[simp] theorem State.setPrio_regs (s : State) (n : Nat) (b : Byte) : (s.setPrio n b).regs = s.regs := by
  unfold State.setPrio; split <;> rfl
@[simp] theorem State.setPrio_pc (s : State) (n : Nat) (b : Byte) : (s.setPrio n b).pc = s.pc := by
  unfold State.setPrio; split <;> rfl
@[simp] theorem State.setPrio_priv (s : State) (n : Nat) (b : Byte) : (s.setPrio n b).priv = s.priv := by
  unfold State.setPrio; split <;> rfl
@[simp] theorem State.setPrio_csr (s : State) (n : Nat) (b : Byte) : (s.setPrio n b).csr = s.csr := by
  unfold State.setPrio; split <;> rfl
@[simp] theorem State.setPrio_mem (s : State) (n : Nat) (b : Byte) : (s.setPrio n b).mem = s.mem := by
  unfold State.setPrio; split <;> rfl
@[simp] theorem State.setPrio_stale (s : State) (n : Nat) (b : Byte) : (s.setPrio n b).stale = s.stale := by
  unfold State.setPrio; split <;> rfl
@[simp] theorem State.setPrio_resv (s : State) (n : Nat) (b : Byte) : (s.setPrio n b).resv = s.resv := by
  unfold State.setPrio; split <;> rfl
@[simp] theorem State.setPrio_stk (s : State) (n : Nat) (b : Byte) : (s.setPrio n b).stk = s.stk := by
  unfold State.setPrio; split <;> rfl
@[simp] theorem State.setPrio_hpe (s : State) (n : Nat) (b : Byte) : (s.setPrio n b).hpe = s.hpe := by
  unfold State.setPrio; split <;> rfl
@[simp] theorem State.setPrio_handlers (s : State) (n : Nat) (b : Byte) : (s.setPrio n b).handlers = s.handlers := by
  unfold State.setPrio; split <;> rfl
@[simp] theorem State.setPrio_sleep (s : State) (n : Nat) (b : Byte) : (s.setPrio n b).sleep = s.sleep := by
  unfold State.setPrio; split <;> rfl
@[simp] theorem State.setPrio_eventLatch (s : State) (n : Nat) (b : Byte) : (s.setPrio n b).eventLatch = s.eventLatch := by
  unfold State.setPrio; split <;> rfl
@[simp] theorem State.setPrio_locked (s : State) (n : Nat) (b : Byte) : (s.setPrio n b).locked = s.locked := by
  unfold State.setPrio; split <;> rfl
@[simp] theorem State.setPrio_dbg (s : State) (n : Nat) (b : Byte) : (s.setPrio n b).dbg = s.dbg := by
  unfold State.setPrio; split <;> rfl
@[simp] theorem State.setPrio_dm (s : State) (n : Nat) (b : Byte) : (s.setPrio n b).dm = s.dm := by
  unfold State.setPrio; split <;> rfl
@[simp] theorem State.setPrio_inputs (s : State) (n : Nat) (b : Byte) : (s.setPrio n b).inputs = s.inputs := by
  unfold State.setPrio; split <;> rfl
@[simp] theorem State.setPrio_freeIndex (s : State) (n : Nat) (b : Byte) : (s.setPrio n b).freeIndex = s.freeIndex := by
  unfold State.setPrio; split <;> rfl

@[simp] theorem State.markOverflow_cfg (s : State) : (s.markOverflow).cfg = s.cfg := by
  unfold State.markOverflow; split <;> rfl
@[simp] theorem State.markOverflow_regs (s : State) : (s.markOverflow).regs = s.regs := by
  unfold State.markOverflow; split <;> rfl
@[simp] theorem State.markOverflow_pc (s : State) : (s.markOverflow).pc = s.pc := by
  unfold State.markOverflow; split <;> rfl
@[simp] theorem State.markOverflow_priv (s : State) : (s.markOverflow).priv = s.priv := by
  unfold State.markOverflow; split <;> rfl
@[simp] theorem State.markOverflow_mem (s : State) : (s.markOverflow).mem = s.mem := by
  unfold State.markOverflow; split <;> rfl
@[simp] theorem State.markOverflow_stale (s : State) : (s.markOverflow).stale = s.stale := by
  unfold State.markOverflow; split <;> rfl
@[simp] theorem State.markOverflow_resv (s : State) : (s.markOverflow).resv = s.resv := by
  unfold State.markOverflow; split <;> rfl
@[simp] theorem State.markOverflow_pfic (s : State) : (s.markOverflow).pfic = s.pfic := by
  unfold State.markOverflow; split <;> rfl
@[simp] theorem State.markOverflow_stk (s : State) : (s.markOverflow).stk = s.stk := by
  unfold State.markOverflow; split <;> rfl
@[simp] theorem State.markOverflow_hpe (s : State) : (s.markOverflow).hpe = s.hpe := by
  unfold State.markOverflow; split <;> rfl
@[simp] theorem State.markOverflow_handlers (s : State) : (s.markOverflow).handlers = s.handlers := by
  unfold State.markOverflow; split <;> rfl
@[simp] theorem State.markOverflow_sleep (s : State) : (s.markOverflow).sleep = s.sleep := by
  unfold State.markOverflow; split <;> rfl
@[simp] theorem State.markOverflow_eventLatch (s : State) : (s.markOverflow).eventLatch = s.eventLatch := by
  unfold State.markOverflow; split <;> rfl
@[simp] theorem State.markOverflow_locked (s : State) : (s.markOverflow).locked = s.locked := by
  unfold State.markOverflow; split <;> rfl
@[simp] theorem State.markOverflow_dbg (s : State) : (s.markOverflow).dbg = s.dbg := by
  unfold State.markOverflow; split <;> rfl
@[simp] theorem State.markOverflow_dm (s : State) : (s.markOverflow).dm = s.dm := by
  unfold State.markOverflow; split <;> rfl
@[simp] theorem State.markOverflow_inputs (s : State) : (s.markOverflow).inputs = s.inputs := by
  unfold State.markOverflow; split <;> rfl
@[simp] theorem State.markOverflow_freeIndex (s : State) : (s.markOverflow).freeIndex = s.freeIndex := by
  unfold State.markOverflow; split <;> rfl

/-! ## The general registers (R12, R31) -/

@[simp] theorem State.readReg_zero (s : State) : s.readReg 0 = 0 := rfl

/-- A read depends on the register file alone. -/
theorem State.readReg_congr {s t : State} (h : t.regs = s.regs) (r : Reg) : t.readReg r = s.readReg r := by
  unfold State.readReg; rw [h]

/-- Reading after a write: the value in the register written, unless it is x0, and every other register as before. -/
theorem State.readReg_writeReg (s : State) (rd r : Reg) (v : Word) :
    (s.writeReg rd v).readReg r = if r = rd ∧ rd ≠ 0 then v else s.readReg r := by
  by_cases h0 : rd = 0
  · subst h0; simp [State.writeReg]
  · simp only [State.writeReg, if_neg h0, State.readReg, Vector.getElem_set]
    by_cases h : r = rd
    · subst h; simp only [if_pos, and_self, ne_eq, h0, not_false_eq_true, if_false]
    · have hn : ¬rd.toNat = r.toNat := fun e => h (BitVec.eq_of_toNat_eq e.symm)
      simp only [if_neg hn, h, false_and, if_false]

@[simp] theorem State.writeReg_zero (s : State) (v : Word) : s.writeReg 0 v = s := rfl

/-- A register write changes the register file alone. -/
theorem State.writeReg_eq (s : State) (r : Reg) (v : Word) :
    s.writeReg r v = { s with regs := (s.writeReg r v).regs } := by
  unfold State.writeReg; split <;> rfl

end Sys2Proof.Machine
end

