-- ==== Sys2Proof/Laws/Memory.lean ====
section
/-! SUPPORT. Memory keeps its canonical form under every operation, and reads after writes give what was written
(spec/20_memory.md R100, R103). -/

namespace Sys2Proof.Machine

theorem Memory.wfFrom_mono {lo lo' : Nat} (h : lo' ≤ lo) : ∀ {m : Memory}, Memory.wfFrom lo m = true → Memory.wfFrom lo' m = true
  | [], _ => rfl
  | (a, v) :: rest, hm => by
    simp only [Memory.wfFrom, Bool.and_eq_true, decide_eq_true_eq] at hm ⊢
    exact ⟨⟨⟨by omega, hm.1.1.2⟩, hm.1.2⟩, hm.2⟩

theorem Memory.wfFrom_write {a : Nat} (ha : a < 2 ^ 32) (v : Byte) :
    ∀ {lo : Nat} {m : Memory}, lo ≤ a → Memory.wfFrom lo m = true → Memory.wfFrom lo (Memory.write m a v) = true
  | lo, [], hl, _ => by
    unfold Memory.write
    split
    · rfl
    · simp only [Memory.wfFrom, Bool.and_eq_true, decide_eq_true_eq]; exact ⟨⟨⟨hl, ha⟩, ‹_›⟩, trivial⟩
  | lo, (b, w) :: rest, hl, hm => by
    have hm' := hm
    simp only [Memory.wfFrom, Bool.and_eq_true, decide_eq_true_eq] at hm
    obtain ⟨⟨⟨h1, h2⟩, h3⟩, h4⟩ := hm
    unfold Memory.write
    split
    · split
      · exact hm'
      · simp only [Memory.wfFrom, Bool.and_eq_true, decide_eq_true_eq]
        exact ⟨⟨⟨hl, ha⟩, ‹_›⟩, ⟨⟨⟨by omega, h2⟩, h3⟩, h4⟩⟩
    · split
      · subst b
        split
        · exact Memory.wfFrom_mono (by omega) h4
        · simp only [Memory.wfFrom, Bool.and_eq_true, decide_eq_true_eq]
          exact ⟨⟨⟨hl, ha⟩, ‹_›⟩, h4⟩
      · simp only [Memory.wfFrom, Bool.and_eq_true, decide_eq_true_eq]
        exact ⟨⟨⟨h1, h2⟩, h3⟩, Memory.wfFrom_write ha v (by omega) h4⟩

theorem Memory.read_below : ∀ {lo : Nat} {m : Memory} {a : Nat}, Memory.wfFrom lo m = true → a < lo → Memory.read m a = unlistedByte
  | _, [], _, _, _ => rfl
  | lo, (b, w) :: rest, a, hm, h => by
    simp only [Memory.wfFrom, Bool.and_eq_true, decide_eq_true_eq] at hm
    unfold Memory.read
    rw [if_neg (by omega), if_pos (by omega)]

theorem Memory.read_write (v : Byte) (a c : Nat) : ∀ {lo : Nat} {m : Memory}, Memory.wfFrom lo m = true →
    Memory.read (Memory.write m a v) c = if c = a then v else Memory.read m c
  | lo, [], _ => by
    unfold Memory.write
    by_cases hv : v = unlistedByte
    · simp [hv, Memory.read]
    · simp only [hv, if_false, Memory.read]; split <;> simp
  | lo, (b, w) :: rest, hm => by
    simp only [Memory.wfFrom, Bool.and_eq_true, decide_eq_true_eq] at hm
    obtain ⟨⟨⟨h1, h2⟩, h3⟩, h4⟩ := hm
    have ih := Memory.read_write v a c h4
    have hb : ∀ x, x < b + 1 → Memory.read rest x = unlistedByte := fun x hx => Memory.read_below h4 hx
    unfold Memory.write
    by_cases hab : a < b
    · simp only [hab, if_true]
      by_cases hv : v = unlistedByte
      · simp only [hv, if_true, Memory.read]
        by_cases hc : c = a
        · subst c; simp [hab, (show a ≠ b by omega)]
        · simp [hc]
      · simp only [hv, if_false]
        rw [Memory.read]
        by_cases hc : c = a
        · simp [hc]
        · simp only [hc, if_false]
          by_cases hca : c < a
          · simp only [hca, if_true, Memory.read]
            rw [if_neg (by omega), if_pos (by omega)]
          · simp [hca]
    · simp only [hab, if_false]
      by_cases hab' : a = b
      · subst a
        simp only [if_true]
        by_cases hv : v = unlistedByte
        · simp only [hv, if_true, Memory.read]
          by_cases hc : c = b
          · subst c; simp [hb]
          · simp only [hc, if_false]
            split
            · rename_i hlt; simp [hb c (by omega)]
            · rfl
        · simp only [hv, if_false, Memory.read]
          split <;> simp_all
      · simp only [hab', if_false, Memory.read]
        by_cases hc : c = b
        · subst c; simp [Ne.symm hab']
        · simp only [hc, if_false]
          by_cases hcb : c < b
          · simp [hcb, (show c ≠ a by omega)]
          · simp [hcb, ih]

/-! ## The canonical form (log entry 5) -/

theorem Memory.wf_write {m : Memory} (h : Memory.wf m = true) {a : Nat} (ha : a < 2 ^ 32) (v : Byte) :
    Memory.wf (Memory.write m a v) = true := Memory.wfFrom_write ha v (Nat.zero_le a) h

theorem Memory.wf_writeCells : ∀ (cells : List Host.Cell) {m : Memory}, Memory.wf m = true →
    (∀ c ∈ cells, c.1 < 2 ^ 32) → Memory.wf (Memory.writeCells m cells) = true
  | [], _, h, _ => h
  | (a, v) :: rest, _, h, hc =>
    Memory.wf_writeCells rest (Memory.wf_write h (hc (a, v) (by simp)) v) fun c hm => hc c (by simp [hm])

theorem byteAddr_lt (a : Word) (k : Nat) : byteAddr a k < 2 ^ 32 := BitVec.isLt _

theorem storeCells_lt (w : Width) (a v : Word) : ∀ c ∈ storeCells w a v, c.1 < 2 ^ 32 := by
  have h := byteAddr_lt a
  cases w <;> simp only [storeCells, List.forall_mem_cons, List.not_mem_nil, false_imp_iff, implies_true, and_true] <;>
    simp only [h, and_self]

theorem Memory.wf_store {m : Memory} (h : Memory.wf m = true) (w : Width) (a v : Word) :
    Memory.wf (Memory.store m w a v) = true := Memory.wf_writeCells _ h (storeCells_lt w a v)

theorem State.reset_mem_wf (c : Config) : Memory.wf (State.resetWith c).mem = true := rfl

/-! ## Reads after writes -/

/-- The last of the cells at an address gives its byte; with none there, memory reads as before. -/
theorem Memory.read_writeCells (c : Nat) : ∀ (cells : List Host.Cell) {m : Memory}, Memory.wf m = true →
    (∀ d ∈ cells, d.1 < 2 ^ 32) → Memory.read (Memory.writeCells m cells) c =
      cells.foldl (fun b d => if c = d.1 then d.2 else b) (Memory.read m c)
  | [], _, _, _ => rfl
  | (a, v) :: rest, m, h, hc => by
    rw [Memory.writeCells, Memory.read_writeCells c rest (Memory.wf_write h (hc (a, v) (by simp)) v)
      fun d hd => hc d (by simp [hd]), Memory.read_write v a c h]
    rfl

/-- A byte that no cell names reads as before. -/
theorem Memory.read_writeCells_of_ne {m : Memory} (h : Memory.wf m = true) {cells : List Host.Cell}
    (hc : ∀ d ∈ cells, d.1 < 2 ^ 32) {c : Nat} (hn : ∀ d ∈ cells, c ≠ d.1) :
    Memory.read (Memory.writeCells m cells) c = Memory.read m c := by
  rw [Memory.read_writeCells c cells h hc]
  clear hc
  generalize Memory.read m c = b
  induction cells generalizing b with
  | nil => rfl
  | cons d ds ih =>
    rw [List.foldl_cons, if_neg (hn d (by simp))]
    exact ih (fun e he => hn e (by simp [he])) b

end Sys2Proof.Machine
end

