-- ==== Sys2Proof/Laws/Ops.lean ====
section
/-! SUPPORT. One lemma for each shared operation of Machine/Ops.lean, saying once everything it can do: taking a trap
(spec/60_exceptions.md R430), raising an exception, going on with a result, returning from a trap (R440). -/

namespace Sys2Proof.Machine

/-! ## Free values -/

/-- The state is as it was, or one free value has been used: what a read of a device or CSR can do. -/
def SameOrDrawn (s t : State) : Prop := t = s ∨ t = s.drawn

theorem SameOrDrawn.refl (s : State) : SameOrDrawn s s := .inl rfl

theorem SameOrDrawn.eq {s t : State} (h : SameOrDrawn s t) : t = { s with freeIndex := t.freeIndex } := by
  rcases h with rfl | rfl <;> rfl

/-! ## Going on with a result (R12, R424) -/

/-- What an instruction can do that goes on with a result. -/
theorem State.run_cases {α : Type} {s t : State} {r : Res α} {k : α → State → Outcome} (h : s.run r k = .next t) :
    (∃ a s', r = .ok a s' ∧ k a s' = .next t) ∨ (∃ e, r = .raise e ∧ s.raiseExc e = .next t) ∨
      (r = .trigger ∧ t = s.enterDebugByTrigger) ∨ (∃ f, r = .fault f ∧ s.dbg = .progbuf ∧ t = s.endProgbuf 3) := by
  cases r with
  | ok a s' => exact .inl ⟨a, s', rfl, h⟩
  | raise e => exact .inr (.inl ⟨e, rfl, h⟩)
  | trigger => cases h; exact .inr (.inr (.inl ⟨rfl, rfl⟩))
  | fault f =>
    refine .inr (.inr (.inr ⟨f, rfl, ?_⟩))
    simp only [State.run, State.accessError] at h
    split at h
    · cases h; exact ⟨‹_›, rfl⟩
    · cases h
  | refuse e => cases h

/-- A result that completed, of an operation that goes on with one that completed. -/
theorem Res.bind_ok {α β : Type} {r : Res α} {k : α → State → Res β} {b : β} {t : State} (h : r.bind k = .ok b t) :
    ∃ a s', r = .ok a s' ∧ k a s' = .ok b t := by
  cases r with
  | ok a s' => exact ⟨a, s', rfl, h⟩
  | _ => cases h

/-! ## Trap entry (R430, R431) -/

/-- The entry of a slot through the vector table, where it gives one: the state has used at most one free value, and
the address is the slot's, or bit 0 of it is 0. -/
theorem State.tableEntry_cases {s s' : State} {slot : Nat} {a : Word} (h : s.tableEntry slot = .ok (a, s')) :
    SameOrDrawn s s' ∧ ((s.vectorIndirect = false ∧ a = s.vectorAddr slot) ∨
      (s.vectorIndirect = true ∧ s.target (s.vectorAddr slot) = .memory ∧
        a = clearBit0 (Memory.load s.mem .word (s.vectorAddr slot)))) := by
  unfold State.tableEntry at h
  split at h
  · rename_i hv
    unfold State.vectorRead at h
    split at h
    · rename_i ht
      simp only at h
      split at h
      · split at h
        · cases h; exact ⟨.inr rfl, .inr ⟨hv, ht, rfl⟩⟩
        · cases h
      · cases h; exact ⟨.inl rfl, .inr ⟨hv, ht, rfl⟩⟩
    · cases h
    · cases h
  · rename_i hv
    cases h
    exact ⟨.inl rfl, .inl ⟨by simpa using hv, rfl⟩⟩

/-- The entry of an interrupt, where there is one: a VTF channel's address, or the table's (R450). -/
theorem State.interruptEntry_cases {s s' : State} {n : Nat} {a : Word} (h : s.interruptEntry n = .ok (a, s')) :
    SameOrDrawn s s' ∧ ((∃ k, k < 4 ∧ s.vtfFor n k = true ∧ a = s.vtfTarget k) ∨ s.tableEntry n = .ok (a, s')) := by
  unfold State.interruptEntry at h
  split at h
  · rename_i k hk
    cases h
    have := List.mem_of_find?_eq_some hk
    refine ⟨.inl rfl, .inl ⟨k, ?_, List.find?_some hk, rfl⟩⟩
    simp at this
    omega
  · exact ⟨(State.tableEntry_cases h).1, .inr h⟩

/-- What taking a trap gives, where it gives a next state (R430, R444). -/
theorem State.takeTrap_cases {s t : State} {cause tval : Word} {slot : Nat} {entry : Except Outcome (Word × State)}
    (hn : ∀ o u, entry = .error o → o ≠ .next u) (h : s.takeTrap cause tval slot entry = .next t) :
    s.level < 4 ∧ ∃ a s', entry = .ok (a, s') ∧ t = s'.enterTrap cause tval slot a := by
  unfold State.takeTrap at h
  split at h
  · cases h
  · split at h
    · rename_i a s'
      cases h
      exact ⟨by omega, a, s', rfl, rfl⟩
    · rename_i o
      exact absurd h (hn o t rfl)

/-- A table entry that fails is no next state. -/
theorem State.tableEntry_error {s u : State} {slot : Nat} {o : Outcome} (h : s.tableEntry slot = .error o) :
    o ≠ .next u := by
  unfold State.tableEntry at h
  split at h
  · unfold State.vectorRead at h
    split at h
    · simp only at h
      split at h
      · split at h
        · cases h
        · cases h; simp
      · cases h
    · cases h; simp
    · cases h; simp
  · cases h

theorem State.interruptEntry_error {s u : State} {n : Nat} {o : Outcome} (h : s.interruptEntry n = .error o) :
    o ≠ .next u := by
  unfold State.interruptEntry at h
  split at h
  · cases h
  · exact State.tableEntry_error h

/-- Taking an exception: fewer than four handlers run, and the state is the entry's at the table's address (R430). -/
theorem State.takeException_cases {s t : State} {e : Exc} (h : s.takeException e = .next t) :
    s.level < 4 ∧ ∃ a s', s.tableEntry (excSlot s.cfg.model e) = .ok (a, s') ∧
      t = s'.enterTrap (excCode e) (excTval e) (excSlot s.cfg.model e) a :=
  State.takeTrap_cases (fun _ _ ho => State.tableEntry_error ho) h

/-- Taking an interrupt: fewer than four handlers run, and the state is the entry's at the interrupt's address (R430,
R450). -/
theorem State.takeInterrupt_cases {s t : State} {n : Nat} (h : s.takeInterrupt n = .next t) :
    s.level < 4 ∧ ∃ a s', s.interruptEntry n = .ok (a, s') ∧ t = s'.enterTrap (interruptCause n) 0 n a :=
  State.takeTrap_cases (fun _ _ ho => State.interruptEntry_error ho) h

/-- Raising an exception: a trap, or the end of the program buffer (R430, R565). -/
theorem State.raiseExc_cases {s t : State} {e : Exc} (h : s.raiseExc e = .next t) :
    (s.dbg = .progbuf ∧ t = s.endProgbuf 3) ∨ (s.dbg ≠ .progbuf ∧ s.takeException e = .next t) := by
  unfold State.raiseExc at h
  split at h
  · cases h; exact .inl ⟨‹_›, rfl⟩
  · exact .inr ⟨‹_›, h⟩

/-! ## The fields of `mstatus` (R40) -/

@[simp] theorem mkMstatus_mie (a b : Bool) (p : Priv) : mstatusMie (mkMstatus a b p) = a := by
  cases a <;> cases b <;> cases p <;> rfl

@[simp] theorem mkMstatus_mpie (a b : Bool) (p : Priv) : mstatusMpie (mkMstatus a b p) = b := by
  cases a <;> cases b <;> cases p <;> rfl

@[simp] theorem mkMstatus_mpp (a b : Bool) (p : Priv) : mstatusMpp (mkMstatus a b p) = p := by
  cases a <;> cases b <;> cases p <;> rfl

/-- Every other bit reads 0. -/
theorem mkMstatus_reserved (a b : Bool) (p : Priv) : mkMstatus a b p &&& 0xFFFFE777 = 0 := by
  cases a <;> cases b <;> cases p <;> decide

/-! The fields after a trap entry that the entry sequence names, and those it leaves alone (R430 to R437). -/

section
variable (s : State) (cause tval : Word) (slot : Nat) (entry : Word)

@[simp] theorem State.enterTrap_pc : (s.enterTrap cause tval slot entry).pc = entry := rfl
@[simp] theorem State.enterTrap_priv : (s.enterTrap cause tval slot entry).priv = .machine := rfl
@[simp] theorem State.enterTrap_mepc : (s.enterTrap cause tval slot entry).csr.mepc = s.pc := rfl
@[simp] theorem State.enterTrap_mcause : (s.enterTrap cause tval slot entry).csr.mcause = cause := rfl
@[simp] theorem State.enterTrap_mtval : (s.enterTrap cause tval slot entry).csr.mtval = tval := rfl
@[simp] theorem State.enterTrap_handlers : (s.enterTrap cause tval slot entry).handlers = slot :: s.handlers := rfl
@[simp] theorem State.enterTrap_sleep : (s.enterTrap cause tval slot entry).sleep = .awake := rfl
@[simp] theorem State.enterTrap_mstatus : (s.enterTrap cause tval slot entry).csr.mstatus =
    mkMstatus (mstatusMie s.csr.mstatus && decide (s.level + 1 < s.maxLevel)) (mstatusMie s.csr.mstatus) s.priv := rfl
@[simp] theorem State.enterTrap_regs : (s.enterTrap cause tval slot entry).regs = s.regs := by simp [State.enterTrap]
@[simp] theorem State.enterTrap_mem : (s.enterTrap cause tval slot entry).mem = s.mem := by simp [State.enterTrap]
@[simp] theorem State.enterTrap_stale : (s.enterTrap cause tval slot entry).stale = s.stale := by simp [State.enterTrap]
@[simp] theorem State.enterTrap_cfg : (s.enterTrap cause tval slot entry).cfg = s.cfg := by simp [State.enterTrap]
@[simp] theorem State.enterTrap_stk : (s.enterTrap cause tval slot entry).stk = s.stk := by simp [State.enterTrap]
@[simp] theorem State.enterTrap_dbg : (s.enterTrap cause tval slot entry).dbg = s.dbg := by simp [State.enterTrap]
@[simp] theorem State.enterTrap_dm : (s.enterTrap cause tval slot entry).dm = s.dm := by simp [State.enterTrap]
@[simp] theorem State.enterTrap_pfic : (s.enterTrap cause tval slot entry).pfic =
    { s.pfic with
      act := s.pfic.act ||| BitVec.twoPow 256 slot
      pend := s.pfic.pend &&& ~~~BitVec.twoPow 256 slot } := by simp [State.enterTrap]

/-- NEST_OV is all that a trap entry can change in `inestcr` (R60, R444). -/
theorem State.markOverflow_eq : s.markOverflow = { s with
    csr := { s.csr with
      inestcr := if s.cfg.model ≠ .v3a ∧ 2 ≤ s.level then s.csr.inestcr ||| 0x40000000 else s.csr.inestcr } } := by
  unfold State.markOverflow; split <;> rfl

/-- The whole state after a trap entry. -/
theorem State.enterTrap_eq : s.enterTrap cause tval slot entry = { s with
    csr := { s.csr with
      mepc := s.pc
      mcause := cause
      mtval := tval
      mstatus := mkMstatus (mstatusMie s.csr.mstatus && decide (s.level + 1 < s.maxLevel)) (mstatusMie s.csr.mstatus)
        s.priv
      inestcr := if s.cfg.model ≠ .v3a ∧ 2 ≤ s.level then s.csr.inestcr ||| 0x40000000 else s.csr.inestcr }
    priv := .machine
    pc := entry
    hpe := s.hpe.setIfInBounds s.level (if s.hpeEnabled then .saved s.hpeSave else .empty)
    resv := s.resv.map fun r => { r with certain := false }
    pfic := { s.pfic with
      act := s.pfic.act ||| BitVec.twoPow 256 slot
      pend := s.pfic.pend &&& ~~~BitVec.twoPow 256 slot }
    handlers := slot :: s.handlers
    sleep := .awake } := by
  unfold State.enterTrap
  rw [State.markOverflow_eq]
  rfl

/-- The CSRs after a trap entry. -/
theorem State.enterTrap_csr : (s.enterTrap cause tval slot entry).csr =
    { s.csr with
      mepc := s.pc
      mcause := cause
      mtval := tval
      mstatus := mkMstatus (mstatusMie s.csr.mstatus && decide (s.level + 1 < s.maxLevel)) (mstatusMie s.csr.mstatus)
        s.priv
      inestcr := if s.cfg.model ≠ .v3a ∧ 2 ≤ s.level then s.csr.inestcr ||| 0x40000000 else s.csr.inestcr } := by
  rw [State.enterTrap_eq]

end

/-! ## Trap return (R440 to R447) -/

/-- A pop of the hardware stack changes general registers, frames and the count of free values only. -/
theorem State.writeRegs_eq : ∀ (rs : List Reg) (vs : List Word) (s : State),
    s.writeRegs rs vs = { s with regs := (s.writeRegs rs vs).regs }
  | [], _, _ => rfl
  | _ :: _, [], _ => rfl
  | r :: rs, v :: vs, s => by
    rw [State.writeRegs]
    refine (State.writeRegs_eq rs vs (s.writeReg r v)).trans ?_
    congr 1 <;> simp

theorem State.hpeScramble_eq : ∀ (rs : List Reg) (s : State),
    s.hpeScramble rs = { s with regs := (s.hpeScramble rs).regs, freeIndex := (s.hpeScramble rs).freeIndex }
  | [], _ => rfl
  | r :: rs, s => by
    rw [State.hpeScramble]
    refine (State.hpeScramble_eq rs (s.writeReg r s.free).drawn).trans ?_
    congr 1 <;> simp

theorem State.hpePop_eq (s : State) (k : Nat) : s.hpePop k =
    { s with regs := (s.hpePop k).regs, hpe := (s.hpePop k).hpe, freeIndex := (s.hpePop k).freeIndex } := by
  unfold State.hpePop
  simp only
  split
  · rfl
  · split
    · split
      · unfold State.hpeRestore; rw [State.writeRegs_eq]
      · rw [State.hpeScramble_eq]
    · rw [State.hpeScramble_eq]
    · split
      · rw [State.hpeScramble_eq]
      · rfl
    · split
      · rw [State.hpeScramble_eq]
      · rfl

/-- A pop empties the place of its level, whatever was in it (R445, R446). -/
@[simp] theorem State.hpePop_hpe (s : State) (k : Nat) : (s.hpePop k).hpe = s.hpe.setIfInBounds k .empty := by
  unfold State.hpePop
  simp only
  split
  · rfl
  · split
    · split
      · unfold State.hpeRestore; rw [State.writeRegs_eq]
      · rw [State.hpeScramble_eq]
    · rw [State.hpeScramble_eq]
    · split
      · rw [State.hpeScramble_eq]
      · rfl
    · split
      · rw [State.hpeScramble_eq]
      · rfl

/-- The enable is all that a change can be of consequence for: without one the stack stays as it is (R446). -/
theorem State.settleHpe_same {s : State} {b : Bool} (h : s.hpeEnabled = b) : s.settleHpe b = s := by
  unfold State.settleHpe
  rw [if_pos h]

/-- The whole state after a handler ends. -/
theorem State.endHandler_eq (s : State) (slot k : Nat) (rest : List Nat) : s.endHandler slot k rest = { s with
    regs := (s.hpePop k).regs
    hpe := (s.endHandler slot k rest).hpe
    freeIndex := (s.hpePop k).freeIndex
    pfic := { s.pfic with act := s.pfic.act &&& ~~~BitVec.twoPow 256 slot }
    csr := { s.csr with intsyscr := s.csr.intsyscr &&& ~~~0x20 }
    handlers := rest
    sleep := if s.sleepsOnExit k then .asleep s.sleepDeep false else s.sleep } := by
  unfold State.endHandler State.settleHpe
  rw [State.hpePop_eq]

/-- The hardware stack after a handler ends: its place is empty, and the handlers that go on are unbalanced where clearing
GIHWSTKNEN switched the stack on (R441, R446). -/
theorem State.endHandler_hpe (s : State) (slot k : Nat) (rest : List Nat) : (s.endHandler slot k rest).hpe =
    if (s.endHandler slot k rest).hpeEnabled = s.hpeEnabled then s.hpe.setIfInBounds k .empty
    else unbalance (s.hpe.setIfInBounds k .empty) rest.length := by
  rw [← State.hpePop_hpe]
  rfl

/-- What returning from a trap gives, where it gives a next state. -/
theorem State.trapReturn_cases {s t : State} (h : s.trapReturn = .next t) :
    (s.handlers = [] ∧ t = s.returnCore) ∨
      ∃ slot rest, s.handlers = slot :: rest ∧ rest.length < 2 ∧ t = s.returnCore.endHandler slot rest.length rest := by
  unfold State.trapReturn at h
  split at h
  · cases h; exact .inl ⟨‹_›, rfl⟩
  · rename_i slot rest hh
    split at h
    · cases h
    · cases h; exact .inr ⟨slot, rest, hh, by omega, rfl⟩

section
variable (s : State) (slot k : Nat) (rest : List Nat)

@[simp] theorem State.endHandler_pc : (s.endHandler slot k rest).pc = s.pc := by
  rw [State.endHandler_eq]
@[simp] theorem State.endHandler_priv : (s.endHandler slot k rest).priv = s.priv := by
  rw [State.endHandler_eq]
@[simp] theorem State.endHandler_mem : (s.endHandler slot k rest).mem = s.mem := by
  rw [State.endHandler_eq]
@[simp] theorem State.endHandler_cfg : (s.endHandler slot k rest).cfg = s.cfg := by
  rw [State.endHandler_eq]
@[simp] theorem State.endHandler_stk : (s.endHandler slot k rest).stk = s.stk := by
  rw [State.endHandler_eq]
@[simp] theorem State.endHandler_dbg : (s.endHandler slot k rest).dbg = s.dbg := by
  rw [State.endHandler_eq]
@[simp] theorem State.endHandler_handlers : (s.endHandler slot k rest).handlers = rest := rfl
@[simp] theorem State.endHandler_csr : (s.endHandler slot k rest).csr =
    { s.csr with intsyscr := s.csr.intsyscr &&& ~~~0x20 } := by
  rw [State.endHandler_eq]
@[simp] theorem State.endHandler_pfic : (s.endHandler slot k rest).pfic =
    { s.pfic with act := s.pfic.act &&& ~~~BitVec.twoPow 256 slot } := by
  rw [State.endHandler_eq]

end

end Sys2Proof.Machine
end

