-- ==== Sys2Proof/Laws/Access.lean ====
section
/-! SUPPORT. One lemma for each operation of a data access, saying once everything it can do (spec/20_memory.md R110,
spec/61_pfic.md R473, spec/62_systick_power_debug.md R534). -/

namespace Sys2Proof.Machine

/-! ## The checks -/

/-- An access that passes the checks: no trigger, aligned, allowed by the PMP, and the state as it was (R110). -/
theorem State.checkAccess_cases {s t : State} {k : Access} {w : Width} {a : Word} {u : Unit}
    (h : s.checkAccess k w a = .ok u t) :
    t = s ∧ s.firedTrigger k a = none ∧ aligned w a = true ∧ s.pmpAllows k a = true := by
  unfold State.checkAccess at h
  split at h
  · cases h
  · cases h
  · rename_i hf
    split at h
    · cases h
    · split at h
      · cases h; exact ⟨rfl, hf, by simp_all, ‹_›⟩
      · cases h

/-- The checks pass on exactly these conditions. -/
theorem State.checkAccess_ok {s : State} {k : Access} {w : Width} {a : Word} (hf : s.firedTrigger k a = none)
    (ha : aligned w a = true) (hp : s.pmpAllows k a = true) : s.checkAccess k w a = .ok () s := by
  simp [State.checkAccess, hf, ha, hp]

/-! ## Reads -/

theorem State.withFree_cases {s t : State} {v mask x : Word} (h : s.withFree v mask = .ok x t) : SameOrDrawn s t := by
  unfold State.withFree at h
  split at h <;> cases h
  · exact .inl rfl
  · exact .inr rfl

theorem State.pficValue_cases {s t : State} {r : PficReg} {v : Word} (h : s.pficValue r = .ok v t) :
    SameOrDrawn s t := by
  cases r <;> simp only [State.pficValue] at h
  case isr => exact State.withFree_cases h
  case ipr => exact State.withFree_cases h
  case iactr => exact State.withFree_cases h
  case gisr =>
    unfold State.nestCode at h
    split at h
    · rename_i hn
      split at hn <;> cases hn <;> cases h
      · exact .inl rfl
      · exact .inl rfl
      · exact .inl rfl
      · exact .inr rfl
    · split at h <;> cases h <;> simp_all
  case vtfaddrr => split at h <;> cases h <;> exact .inl rfl
  all_goals cases h; exact .inl rfl

theorem State.pficLoad_cases {s t : State} {w : Width} {a v : Word} (h : s.pficLoad w a = .ok v t) :
    SameOrDrawn s t := by
  unfold State.pficLoad at h
  split at h
  · cases h
  · exact State.withFree_cases h
  · split at h
    · exact State.pficValue_cases h
    · cases h

/-- A read leaves the state as it is, or uses one free value. -/
theorem State.readTarget_cases {s t : State} {w : Width} {a v : Word} (h : s.readTarget w a = .ok v t) :
    SameOrDrawn s t := by
  unfold State.readTarget at h
  split at h
  · cases h; exact .inl rfl
  · exact State.pficLoad_cases h
  · unfold State.stkLoad at h
    split at h
    · cases h
    · split at h
      · cases h
      · cases h; exact .inl rfl
  · unfold State.debugLoad at h
    split at h
    · cases h; exact .inl rfl
    · split at h <;> cases h
      exact .inl rfl
  · cases h
  · cases h

theorem State.loadData_cases {s t : State} {w : Width} {a v : Word} (h : s.loadData w a = .ok v t) :
    SameOrDrawn s t := by
  obtain ⟨_, s', hc, hr⟩ := Res.bind_ok h
  obtain ⟨rfl, -⟩ := State.checkAccess_cases hc
  exact State.readTarget_cases hr

/-! ## Writes to the devices -/

/-- A number that can be pending or run a handler: a fixed slot, or a programmable number (R471, R474). -/
def LegalNumber (c : Config) (n : Nat) : Prop := (0x32C ||| programmable c).getLsbD n = true

/-- The reserved internal numbers are no such number (R471, I24). -/
theorem LegalNumber.not_reserved {c : Config} {n : Nat} (h : LegalNumber c n) : (0xACD3#256).getLsbD n = false := by
  unfold LegalNumber programmable externalNumbers at h
  by_cases hn : n < 16
  · interval_cases n <;> simp_all
  · by_cases hm : n < 256
    · rw [show (0xACD3#256) = (0xACD3#16).zeroExtend 256 from rfl]
      simp only [BitVec.truncate_eq_setWidth, BitVec.getLsbD_setWidth, Bool.and_eq_false_imp]
      intro _
      exact BitVec.getLsbD_of_ge _ _ (by omega)
    · exact BitVec.getLsbD_of_ge _ _ (by omega)

/-- The implemented bits of the controller's registers are all that a write leaves in them (R474 to R484). -/
structure PficWritten (s : State) (p : Pfic) : Prop where
  en : p.en &&& ~~~s.pfic.en &&& ~~~programmable s.cfg = 0
  prio : ∀ n : Nat, p.prio[n]? = s.pfic.prio[n]? ∨ ∃ b : Byte, p.prio[n]? = some (b &&& prioMask s.cfg.model)
  ithresdr : p.ithresdr = s.pfic.ithresdr ∨ ∃ b : Byte, p.ithresdr = b &&& threshMask s.cfg.model
  sctlr : p.sctlr = s.pfic.sctlr ∨ ∃ v : Word, p.sctlr = v &&& 0x1E
  /-- a new pending bit is one of a number the model has (R471, R475) -/
  pend : ∀ n, p.pend.getLsbD n = true → s.pfic.pend.getLsbD n = true ∨ LegalNumber s.cfg n
  /-- a store sets no active bit (R476) -/
  act : ∀ n, p.act.getLsbD n = true → s.pfic.act.getLsbD n = true
  vtfbaddrr : p.vtfbaddrr = s.pfic.vtfbaddrr ∨ ∃ v : Word, p.vtfbaddrr = v &&& 0xF0000000
  vtfaddrr : ∀ k : Nat, p.vtfaddrr[k]? = s.pfic.vtfaddrr[k]? ∨ ∃ v : Word, p.vtfaddrr[k]? = some (v &&& vtfMask s.cfg.model)

/-- Only fields that no rule restricts differ, and pending bits. -/
theorem PficWritten.same {s : State} {p : Pfic} (hs : p = { s.pfic with cfgr := p.cfgr, vtfidr := p.vtfidr, pend := p.pend })
    (hp : ∀ n, p.pend.getLsbD n = true → s.pfic.pend.getLsbD n = true ∨ LegalNumber s.cfg n) : PficWritten s p := by
  refine ⟨?_, fun n => .inl ?_, .inl ?_, .inl ?_, hp, fun n h => ?_, .inl ?_, fun k => .inl ?_⟩
  · rw [hs]; simp
  all_goals rw [hs] at *
  exact h

/-- What a store to the controller or the timer can change: those devices, the event latch, the pairing of the hardware
stack, the count of free values. -/
def DeviceWritten (s t : State) : Prop :=
  t = { s with pfic := t.pfic, stk := t.stk, hpe := t.hpe, eventLatch := t.eventLatch, freeIndex := t.freeIndex } ∧
    PficWritten s t.pfic ∧
    (t.stk.ctlr = s.stk.ctlr ∨ ∃ v : Word, t.stk.ctlr = v &&& stkCtlrMask s.cfg.model) ∧
    (t.stk.sr = s.stk.sr ∨ ∃ v : Word, t.stk.sr = srAfterWrite s.stk.sr v)

theorem DeviceWritten.refl (s : State) : DeviceWritten s s :=
  ⟨rfl, .same rfl fun _ h => .inl h, .inl rfl, .inl rfl⟩

/-- The numbers a request may name. -/
def LegalMask (c : Config) (m : BitVec 256) : Prop := ∀ n, m.getLsbD n = true → LegalNumber c n

/-- The internal numbers a model may use are legal. -/
theorem LegalMask.internal (c : Config) {m : BitVec 256} (h : m &&& 0x532C = m) : LegalMask c m := by
  intro n hn
  rw [← h] at hn
  unfold LegalNumber programmable
  rw [BitVec.getLsbD_and, Bool.and_eq_true, show (0x532C : BitVec 256) = 0x32C ||| 0x5000 by decide,
    BitVec.getLsbD_or, Bool.or_eq_true] at hn
  rw [BitVec.getLsbD_or, BitVec.getLsbD_or]
  rcases hn.2 with hn | hn <;> rw [hn] <;> simp only [Bool.true_or, Bool.or_true]

/-- What software may request (R475). -/
theorem LegalMask.software (c : Config) (m : BitVec 256) :
    LegalMask c (m &&& (programmable c ||| fixedSlots c.model)) := by
  intro n h
  rw [BitVec.getLsbD_and, Bool.and_eq_true, BitVec.getLsbD_or, Bool.or_eq_true] at h
  rcases h.2 with h | h
  · rw [LegalNumber, BitVec.getLsbD_or, h, Bool.or_true]
  · exact LegalMask.internal c (by unfold fixedSlots; split <;> decide) n h

/-- The requests of the timer are SysTick and the software interrupt (R486, R540). -/
theorem LegalMask.timer (c : Config) (t : SysTick) (m : BitVec 256) : LegalMask c (levelRequests c.model t &&& m) := by
  intro n h
  rw [BitVec.getLsbD_and, Bool.and_eq_true] at h
  refine LegalMask.internal c ?_ n h.1
  unfold levelRequests
  split
  · decide
  · split <;> split <;> decide

theorem DeviceWritten.request (s : State) {m : BitVec 256} (h : LegalMask s.cfg m) : DeviceWritten s (s.request m) := by
  refine ⟨rfl, .same rfl fun n hn => ?_, .inl rfl, .inl rfl⟩
  simp only [State.request_pfic, BitVec.getLsbD_or, Bool.or_eq_true] at hn
  exact hn.imp id (h n)

theorem DeviceWritten.unpend (s : State) (m : BitVec 256) : DeviceWritten s (s.unpend m) := by
  refine ⟨rfl, .same rfl fun n hn => .inl ?_, .inl rfl, .inl rfl⟩
  simp only [State.unpend_pfic, BitVec.getLsbD_and, Bool.and_eq_true] at hn
  exact hn.1

theorem PficWritten.reset (s : State) : PficWritten s Pfic.reset where
  en := by simp [Pfic.reset]
  prio n := by
    by_cases hn : n < 256
    · exact .inr ⟨0, by simp [Pfic.reset, hn]⟩
    · exact .inl (by simp [hn])
  ithresdr := .inr ⟨0, by simp [Pfic.reset]⟩
  sctlr := .inr ⟨0, by simp [Pfic.reset]⟩
  pend n h := by simp [Pfic.reset] at h
  act n h := by simp [Pfic.reset] at h
  vtfbaddrr := .inr ⟨0, by simp [Pfic.reset]⟩
  vtfaddrr k := by
    by_cases hk : k < 4
    · exact .inr ⟨0, by simp [Pfic.reset, hk]⟩
    · exact .inl (by simp [hk])

theorem PficWritten.refl (s : State) : PficWritten s s.pfic := .same rfl fun _ h => .inl h

/-- Pending bits, the event latch and the count of free values are all that changed, and the new pending bits are of
numbers the model has. -/
def PendingChanged (s t : State) : Prop :=
  t = { s with pfic := { s.pfic with pend := t.pfic.pend }, eventLatch := t.eventLatch, freeIndex := t.freeIndex } ∧
    ∀ n, t.pfic.pend.getLsbD n = true → s.pfic.pend.getLsbD n = true ∨ LegalNumber s.cfg n

theorem PendingChanged.deviceWritten {s t : State} (h : PendingChanged s t) : DeviceWritten s t := by
  obtain ⟨h1, h2⟩ := h
  refine ⟨?_, .same ?_ h2, .inl ?_, .inl ?_⟩ <;> rw [h1]

/-- One priority byte: the implemented bits, or nothing (R477). -/
theorem DeviceWritten.setPrio {s u : State} (h : DeviceWritten s u) (n : Nat) (b : Byte) :
    DeviceWritten s (u.setPrio n b) := by
  obtain ⟨he, ⟨h1, h2, h3, h4, h5, h6, h7, h8⟩, hc, hr⟩ := h
  have hm : u.cfg.model = s.cfg.model := by rw [he]
  have hg : u.setPrio n b = { u with pfic := (u.setPrio n b).pfic } := by
    unfold State.setPrio; split <;> rfl
  refine ⟨by rw [hg, he], ?_, by simpa using hc, by simpa using hr⟩
  unfold State.setPrio
  split
  · refine ⟨h1, fun m => ?_, h3, h4, h5, h6, h7, h8⟩
    simp only [Vector.getElem?_setIfInBounds]
    split
    · split
      · exact .inr ⟨b, by rw [hm]⟩
      · rename_i hlt
        exact .inl (by rw [Vector.getElem?_eq_none (by omega)])
    · exact h2 m
  · exact ⟨h1, h2, h3, h4, h5, h6, h7, h8⟩

theorem State.setPrios_cases (s : State) (w : Width) (n : Nat) (v : Word) : DeviceWritten s (s.setPrios w n v) := by
  have h := DeviceWritten.refl s
  cases w <;> simp only [State.setPrios]
  · exact h.setPrio _ _
  · exact (h.setPrio _ _).setPrio _ _
  · exact (((h.setPrio _ _).setPrio _ _).setPrio _ _).setPrio _ _

/-- The NMI and exception bits of PFIC_CFGR change pending bits and the event latch (R479). -/
theorem State.cfgrKey2_cases {s t : State} {v : Word} {u : Unit} (h : s.cfgrKey2 v = .ok u t) : DeviceWritten s t := by
  unfold State.cfgrKey2 at h
  simp only at h
  have trans : ∀ {x y : State}, PendingChanged s x → (y = x.unpend 8 ∨ y = x.unpend 4 ∨ y = x.request 4 ∨ y = x.drawn ∨
      y = x) → PendingChanged s y := by
    rintro x y ⟨hx, hp⟩ (rfl | rfl | rfl | rfl | rfl)
    · refine ⟨by rw [hx]; rfl, fun n hn => hp n ?_⟩
      simp only [State.unpend_pfic, BitVec.getLsbD_and, Bool.and_eq_true] at hn
      exact hn.1
    · refine ⟨by rw [hx]; rfl, fun n hn => hp n ?_⟩
      simp only [State.unpend_pfic, BitVec.getLsbD_and, Bool.and_eq_true] at hn
      exact hn.1
    · refine ⟨by rw [hx]; rfl, fun n hn => ?_⟩
      simp only [State.request_pfic, BitVec.getLsbD_or, Bool.or_eq_true] at hn
      rcases hn with hn | hn
      · exact hp n hn
      · exact .inr (LegalMask.internal _ (by decide) n hn)
    · exact ⟨by rw [hx]; rfl, hp⟩
    · exact ⟨hx, hp⟩
  split at h
  · cases h
  · cases h
    refine PendingChanged.deviceWritten ?_
    have h0 : PendingChanged s s := ⟨rfl, fun _ hn => .inl hn⟩
    have keep : ∀ {x y : State} {b : Prop} [Decidable b], PendingChanged s x →
        (y = x.unpend 8 ∨ y = x.unpend 4 ∨ y = x.request 4 ∨ y = x.drawn ∨ y = x) →
        PendingChanged s (if b then y else x) := by
      intro x y b _ hx hy
      split
      · exact trans hx hy
      · exact hx
    exact keep (keep (keep (keep h0 (.inl rfl)) (.inr (.inl rfl))) (.inr (.inr (.inl rfl)))) (.inr (.inr (.inr (.inl rfl))))

/-- A store to the controller: a system reset, or the controller's registers and the event latch (R473, R592). -/
theorem State.pficStore_cases {s t : State} {w : Width} {a v : Word} {u : Unit} (h : s.pficStore w a v = .ok u t) :
    t = s.systemReset ∨ DeviceWritten s t := by
  unfold State.pficStore at h
  split at h
  · cases h
  · cases h; exact .inr (State.setPrios_cases s w _ v)
  · split at h
    · rename_i r _ _ _
      have same : ∀ p : Pfic, PficWritten s p → DeviceWritten s { s with pfic := p } := fun p hp =>
        ⟨rfl, hp, .inl rfl, .inl rfl⟩
      have set : ∀ p : Pfic, PficWritten s p → DeviceWritten s (s.setPfic p) := fun p hp =>
        ⟨rfl, hp, .inl rfl, .inl rfl⟩
      have rst : DeviceWritten s s.pficReset := set _ (PficWritten.reset s)
      cases r <;> simp only [State.pficWrite] at h
      case isr => cases h; exact .inr (.refl s)
      case ipr => cases h; exact .inr (.refl s)
      case gisr => cases h; exact .inr (.refl s)
      case iactr => cases h; exact .inr (.refl s)
      case iprior => cases h; exact .inr (.refl s)
      case ithresdr =>
        cases h
        exact .inr (same _ { PficWritten.refl s with ithresdr := .inr ⟨_, rfl⟩ })
      case vtfbaddrr => cases h; exact .inr (same _ { PficWritten.refl s with vtfbaddrr := .inr ⟨v, rfl⟩ })
      case vtfidr => cases h; exact .inr (same _ (.same rfl fun _ hn => .inl hn))
      case vtfaddrr x =>
        cases h
        refine .inr (same _ { PficWritten.refl s with vtfaddrr := fun k => ?_ })
        simp only [Vector.getElem?_setIfInBounds]
        split
        · split
          · exact .inr ⟨v, rfl⟩
          · rename_i hlt
            exact .inl (by rw [Vector.getElem?_eq_none (by omega)])
        · exact .inl rfl
      case irer x =>
        cases h
        refine .inr (same _ { PficWritten.refl s with en := ?_ })
        ext i hi; simp; intro h1 _ h2; simp_all
      case ienr x =>
        cases h
        refine .inr (same _ { PficWritten.refl s with en := ?_ })
        ext i hi; simp; intro h1 h2; simp_all
      case iprr x => cases h; exact .inr (.unpend s _)
      case ipsr x =>
        unfold State.softPend at h
        split at h <;> cases h
        exact .inr (.request s (.software _ _))
      case sctlr =>
        cases h
        unfold State.writeSctlr
        split
        · exact .inl rfl
        · exact .inr ⟨rfl, { PficWritten.refl s with sctlr := .inr ⟨v, rfl⟩ }, .inl rfl, .inl rfl⟩
      case cfgr =>
        unfold State.writeCfgr at h
        split at h
        · cases h
          split
          · exact .inr rst
          · exact .inr (set _ (.same rfl fun _ hn => .inl hn))
        · split at h
          · split at h
            · cases h; exact .inr rst
            · exact .inr (State.cfgrKey2_cases h)
          · split at h
            · cases h
              split
              · exact .inl rfl
              · split
                · exact .inr rst
                · exact .inr (.refl s)
            · cases h; exact .inr (.refl s)
    · cases h

/-- A store to the timer changes its registers, and latches a request that becomes asserted (R534, R540). -/
theorem State.stkStore_cases {s t : State} {w : Width} {a v : Word} {u : Unit} (h : s.stkStore w a v = .ok u t) :
    DeviceWritten s t := by
  have key : ∀ r, DeviceWritten s (s.setStk (stkAfterWrite s.cfg.model s.stk r w a v)) := by
    intro r
    have hp := (DeviceWritten.request s (LegalMask.timer s.cfg (stkAfterWrite s.cfg.model s.stk r w a v)
      (~~~levelRequests s.cfg.model s.stk))).2.1
    refine ⟨rfl, hp, ?_, ?_⟩ <;> simp only [State.setStk_stk] <;> cases r <;> simp only [stkAfterWrite]
    all_goals first | exact .inl rfl | exact .inl trivial | exact .inr ⟨v, rfl⟩
  unfold State.stkStore at h
  split at h
  · cases h
  · split at h
    · split at h <;> cases h
      exact key _
    · split at h <;> cases h
      · exact .refl s
      · exact key _

/-! ## Writes -/

/-- What the write of an access can do: bytes of memory, a system reset, the core's devices, or a data word of the
debug module. -/
def Written (s t : State) (w : Width) (a v : Word) : Prop :=
  t = s.storeMemory w a v ∨ t = s.systemReset ∨ DeviceWritten (s.storedAt a) t ∨
    t = { s.storedAt a with dm := t.dm }

theorem State.writeTarget_cases {s t : State} {w : Width} {a v : Word} {u : Unit}
    (h : s.writeTarget w a v = .ok u t) : Written s t w a v := by
  unfold State.writeTarget at h
  split at h
  · cases h; exact .inl rfl
  · rcases State.pficStore_cases h with h | h
    · exact .inr (.inl h)
    · exact .inr (.inr (.inl h))
  · exact .inr (.inr (.inl (State.stkStore_cases h)))
  · unfold State.debugStore at h
    split at h
    · cases h; exact .inr (.inr (.inr rfl))
    · split at h <;> cases h
      exact .inr (.inr (.inr rfl))
  · cases h
  · cases h

theorem State.storeData_cases {s t d : State} {w : Width} {a v : Word} {u : Unit}
    (h : s.storeData w a v d = .ok u t) : Written d t w a v := by
  obtain ⟨_, _, -, hw⟩ := Res.bind_ok h
  exact State.writeTarget_cases hw

/-- An atomic read-modify-write: the read uses at most one free value, then the register, the pc and the word. -/
theorem State.amoData_cases {s t : State} {f : Word → Word → Word} {rd : Reg} {a v : Word} {u : Unit}
    (h : s.amoData f rd a v = .ok u t) :
    ∃ old s', SameOrDrawn s s' ∧ Written ((s'.writeReg rd old).advance 4) t .word a (f old v) := by
  obtain ⟨_, s0, hc, hr⟩ := Res.bind_ok h
  obtain ⟨rfl, -⟩ := State.checkAccess_cases hc
  obtain ⟨old, s', hr, hw⟩ := Res.bind_ok hr
  refine ⟨old, s', ?_, State.writeTarget_cases hw⟩
  unfold Res.asStore at hr
  split at hr
  · cases hr
  · exact State.readTarget_cases hr

/-! ## What an instruction that did not complete can leave -/

/-- A trap, the end of the program buffer, or an entry to debug mode by a trigger. -/
def Interrupted (s t : State) : Prop :=
  (∃ e, s.dbg ≠ .progbuf ∧ s.takeException e = .next t) ∨ (s.dbg = .progbuf ∧ t = s.endProgbuf 3) ∨
    t = s.enterDebugByTrigger

/-- An instruction that goes on with a result completes, or is interrupted. -/
theorem State.run_completes {α : Type} {s t : State} {r : Res α} {k : α → State → Outcome} (h : s.run r k = .next t) :
    (∃ a s', r = .ok a s' ∧ k a s' = .next t) ∨ Interrupted s t := by
  rcases State.run_cases h with h | ⟨e, -, h⟩ | ⟨-, h⟩ | ⟨_, -, h1, h2⟩
  · exact .inl h
  · rcases State.raiseExc_cases h with h | ⟨h1, h2⟩
    · exact .inr (.inr (.inl h))
    · exact .inr (.inl ⟨e, h1, h2⟩)
  · exact .inr (.inr (.inr h))
  · exact .inr (.inr (.inl ⟨h1, h2⟩))

theorem State.raiseExc_interrupted {s t : State} {e : Exc} (h : s.raiseExc e = .next t) : Interrupted s t := by
  rcases State.raiseExc_cases h with h | h
  · exact .inr (.inl h)
  · exact .inl ⟨e, h⟩

/-- What a load instruction can do (R255). -/
theorem State.loadInstr_cases {s t : State} {w : Width} {ext : Word → Word} {rd : Reg} {a len : Word}
    (h : s.loadInstr w ext rd a len = .next t) :
    (∃ v s', SameOrDrawn s s' ∧ t = (s'.writeReg rd v).advance len) ∨ Interrupted s t := by
  rcases State.run_completes h with ⟨v, s', hr, hk⟩ | h
  · cases hk; exact .inl ⟨_, s', State.loadData_cases hr, rfl⟩
  · exact .inr h

/-- What a store instruction can do (R259). -/
theorem State.storeInstr_cases {s t : State} {w : Width} {a v len : Word} (h : s.storeInstr w a v len = .next t) :
    Written (s.advance len) t w a v ∨ Interrupted s t := by
  rcases State.run_completes h with ⟨_, s', hr, hk⟩ | h
  · cases hk; exact .inl (State.storeData_cases hr)
  · exact .inr h

/-- What an AMO can do (R316). -/
theorem State.amoInstr_cases {s t : State} {f : Word → Word → Word} {rd rs2 rs1 : Reg}
    (h : s.amoInstr f rd rs2 rs1 = .next t) :
    (∃ old s' a v, SameOrDrawn s s' ∧ Written ((s'.writeReg rd old).advance 4) t .word a v) ∨ Interrupted s t := by
  rcases State.run_completes h with ⟨_, s', hr, hk⟩ | h
  · cases hk
    obtain ⟨old, s', h1, h2⟩ := State.amoData_cases hr
    exact .inl ⟨old, s', _, _, h1, h2⟩
  · exact .inr h

end Sys2Proof.Machine
end

