-- ==== Sys2Proof/Laws/Exec.lean ====
section
/-! SUPPORT. What the meaning of an instruction can do, once for all 127: `exec_effect` says that a next state of `exec`
is one of the few shapes of `Effect`, which the lemmas about every instruction go through. -/

namespace Sys2Proof.Machine

/-- The new pc keeps bit 0, or has it clear. -/
def PcMoves (s : State) (a : Word) : Prop := a.getLsbD 0 = s.pc.getLsbD 0 ∨ a.getLsbD 0 = false

/-- The shapes of a next state of an instruction. -/
inductive Effect (i : Instr) (s : State) : State → Prop where
  /-- registers, the pc, the reservation, and one free value at most: computing, jumps, branches, loads, fences -/
  | registers (regs : Vector Word 32) (a : Word) (stale : List Host.Cell) (resv : Option Reservation) (n : Nat)
      (h : i.wf = true → PcMoves s a) :
      Effect i s { s with regs := regs, pc := a, stale := stale, resv := resv, freeIndex := n }
  /-- a write, after such a change -/
  | stored (regs : Vector Word 32) (a : Word) (resv : Option Reservation) (n : Nat) (h : i.wf = true → PcMoves s a)
      (w : Width)
      (addr v : Word) (t : State)
      (hw : Written { s with regs := regs, pc := a, resv := resv, freeIndex := n } t w addr v) : Effect i s t
  /-- a trap, the end of the program buffer, or a trigger -/
  | interrupted {t : State} (h : Interrupted s t) : Effect i s t
  /-- a write of a CSR that the access check allows, then a register -/
  | csr (a : BitVec 12) (doesWrite : Bool) (c : CsrName) (h : s.csrAllowed a doesWrite = some c) (s1 s2 : State)
      (h1 : SameOrDrawn s s1)
      (h2 : (doesWrite = false ∧ s2 = s1) ∨ ∃ v, doesWrite = true ∧ s1.csrWrite c v = .ok () s2) (rd : Reg)
      (old : Word) : Effect i s ((s2.writeReg rd old).advance 4)
  /-- `mret` with machine privilege -/
  | returned {t : State} (hi : i = .mret) (hp : s.effPriv = .machine) (h : s.trapReturn = .next t) : Effect i s t
  /-- `wfi` -/
  | slept (sleep : Sleep) (latch : Bool) : Effect i s { s.advance 4 with sleep := sleep, eventLatch := latch }
  /-- `ebreak` to debug mode -/
  | halted (h : s.dbg ≠ .progbuf) : Effect i s (s.enterDebug 1 s.pc)
  /-- `ebreak` in the program buffer -/
  | bufferDone (h : s.dbg = .progbuf) : Effect i s (s.endProgbuf 0)

/-! ## Bit 0 of the pc (R34, R107) -/

theorem getLsbD_zero_add (a b : Word) (h : b.getLsbD 0 = false) : (a + b).getLsbD 0 = a.getLsbD 0 := by
  simp only [BitVec.getLsbD, BitVec.toNat_add, Nat.testBit_zero] at h ⊢
  simp only [decide_eq_false_iff_not] at h
  congr 1
  simp only [eq_iff_iff]
  omega

theorem clearBit0_even (a : Word) : (clearBit0 a).getLsbD 0 = false := by simp [clearBit0]

theorem evenOffset_sext {n : Nat} {off : BitVec n} (h : evenOffset off = true) : (sext32 off).getLsbD 0 = false := by
  have h : off.getLsbD 0 = false := by simpa [evenOffset] using h
  cases n with
  | zero => simp [sext32, BitVec.signExtend, BitVec.of_length_zero]
  | succ n => rw [sext32, BitVec.getLsbD_signExtend]; simpa using h

theorem evenOffset_add {n : Nat} {off : BitVec n} {a : Word} (h : evenOffset off = true) :
    (a + sext32 off).getLsbD 0 = a.getLsbD 0 := getLsbD_zero_add _ _ (evenOffset_sext h)

theorem advance_even (s : State) {len : Word} (h : len = 2 ∨ len = 4) :
    (s.nextPc len).getLsbD 0 = s.pc.getLsbD 0 := by
  rcases h with rfl | rfl <;> exact getLsbD_zero_add _ _ rfl

/-! ## The shapes, operation by operation -/

section
variable {i : Instr} {s t : State}

theorem Effect.ofWriteReg {u : State} (hu : u.cfg = s.cfg ∧ u = { s with
      regs := u.regs, pc := u.pc, stale := u.stale, resv := u.resv, freeIndex := u.freeIndex })
    (h : i.wf = true → PcMoves s u.pc) :
    Effect i s u := by
  rw [hu.2]; exact .registers _ _ _ _ _ h

theorem Effect.retire {rd : Reg} {v len : Word} (h : s.retire rd v len = .next t) (hl : len = 2 ∨ len = 4) :
    Effect i s t := by
  cases h
  refine Effect.ofWriteReg ⟨by simp, ?_⟩ (fun _ => .inl ?_)
  · rw [State.writeReg_eq]; rfl
  · simpa [State.nextPc] using advance_even s hl

theorem Effect.goto {a : Word} (h : Host.Outcome.next (s.setPc a) = (.next t : Outcome))
    (ha : i.wf = true → PcMoves s a) :
    Effect i s t := by
  cases h; exact .registers s.regs a s.stale s.resv s.freeIndex ha

theorem Effect.branch {c : Bool} {off len : Word} (h : s.branch c off len = .next t)
    (ho : i.wf = true → off.getLsbD 0 = false)
    (hl : len = 2 ∨ len = 4) : Effect i s t := by
  refine Effect.goto h fun hw => ?_
  split
  · exact .inl (getLsbD_zero_add _ _ (ho hw))
  · exact .inl (advance_even s hl)

theorem Effect.jump {rd : Reg} {a len : Word} (h : s.jump rd a len = .next t)
    (ha : i.wf = true → PcMoves s a) : Effect i s t := by
  cases h
  refine Effect.ofWriteReg ⟨by simp, ?_⟩ ha
  rw [State.writeReg_eq]; rfl

/-- A register write and the pc, after at most one free value. -/
theorem SameOrDrawn.writeReg {s' : State} (h : SameOrDrawn s s') (rd : Reg) (v : Word) (len : Word) :
    (s'.writeReg rd v).advance len = { s with
      regs := (s'.writeReg rd v).regs, pc := s.pc + len, freeIndex := s'.freeIndex } := by
  rw [State.writeReg_eq]
  rcases h with rfl | rfl <;> rfl

theorem Effect.load {w : Width} {ext : Word → Word} {rd : Reg} {a len : Word}
    (h : s.loadInstr w ext rd a len = .next t) (hl : len = 2 ∨ len = 4) : Effect i s t := by
  rcases State.loadInstr_cases h with ⟨v, s', h1, rfl⟩ | h
  · rw [h1.writeReg]; exact .registers _ _ s.stale s.resv _ (fun _ => .inl (advance_even s hl))
  · exact .interrupted h

theorem Effect.store {w : Width} {a v len : Word} (h : s.storeInstr w a v len = .next t) (hl : len = 2 ∨ len = 4) :
    Effect i s t := by
  rcases State.storeInstr_cases h with h | h
  · exact .stored s.regs _ s.resv s.freeIndex (fun _ => .inl (advance_even s hl)) _ _ _ _ h
  · exact .interrupted h

theorem Effect.illegal {j : Instr} (h : s.illegal j = .next t) : Effect i s t :=
  .interrupted (State.raiseExc_interrupted h)

theorem Effect.withA {j : Instr} {o : Outcome} (ho : o = .next t → Effect i s t) (h : s.withA j o = .next t) :
    Effect i s t := by
  unfold State.withA at h
  split at h
  · exact ho h
  · exact Effect.illegal h

theorem Effect.withB {j : Instr} {b : Bool} {o : Outcome} (ho : o = .next t → Effect i s t)
    (h : s.withB b j o = .next t) : Effect i s t := by
  unfold State.withB at h
  split at h
  · exact ho h
  · exact Effect.illegal h

theorem Effect.amo {f : Word → Word → Word} {rd rs2 rs1 : Reg} (h : s.amoInstr f rd rs2 rs1 = .next t) :
    Effect i s t := by
  rcases State.amoInstr_cases h with ⟨old, s', a, v, h1, h2⟩ | h
  · rw [h1.writeReg] at h2
    exact .stored _ _ s.resv _ (fun _ => .inl (advance_even s (.inr rfl))) _ _ _ _ h2
  · exact .interrupted h

theorem Effect.lrW {rd : Reg} {a : Word} {r : Option Reservation}
    (h : s.run (s.loadData .word a) (fun v s' => ({ s' with resv := r } : State).retire rd v 4) = .next t) :
    Effect i s t := by
  rcases State.run_completes h with ⟨v, s', hr, hk⟩ | h
  · cases hk
    have h1 := State.loadData_cases hr
    refine Effect.ofWriteReg ⟨?_, ?_⟩ (fun _ => .inl ?_)
    · rcases h1 with rfl | rfl <;> simp
    · rw [State.writeReg_eq]; rcases h1 with rfl | rfl <;> rfl
    · rcases h1 with rfl | rfl <;> simpa [State.nextPc] using advance_even _ (.inr rfl)
  · exact .interrupted h

theorem State.scOutcome_cases (s : State) (a : Word) : SameOrDrawn s (s.scOutcome a).2 := by
  unfold State.scOutcome
  split
  · exact .inl rfl
  · split
    · split
      · exact .inl rfl
      · exact .inr rfl
    · exact .inl rfl

theorem State.scDone_eq {u : State} (h : SameOrDrawn s u) (rd : Reg) (code : Word) : u.scDone rd code = { s with
    regs := (u.scDone rd code).regs, pc := s.pc + 4, resv := none, freeIndex := u.freeIndex } := by
  unfold State.scDone
  rw [State.writeReg_eq]
  rcases h with rfl | rfl <;> rfl

theorem Effect.scW {rd rs2 rs1 : Reg}
    (h : (if aligned .word (s.readReg rs1) = false then s.raiseExc (.storeAddressMisaligned (s.readReg rs1))
     else if (s.scOutcome (s.readReg rs1)).1 then
       s.run (s.storeData .word (s.readReg rs1) (s.readReg rs2) ((s.scOutcome (s.readReg rs1)).2.scDone rd 0))
         fun _ s' => .next s'
     else .next ((s.scOutcome (s.readReg rs1)).2.scDone rd 1)) = .next t) : Effect i s t := by
  have hsc := State.scOutcome_cases s (s.readReg rs1)
  split at h
  · exact .interrupted (State.raiseExc_interrupted h)
  · split at h
    · rcases State.run_completes h with ⟨_, s', hr, hk⟩ | h
      · cases hk
        have h1 := State.storeData_cases hr
        rw [State.scDone_eq hsc] at h1
        exact .stored _ _ _ _ (fun _ => .inl (advance_even s (.inr rfl))) _ _ _ _ h1
      · exact .interrupted h
    · cases h
      rw [State.scDone_eq hsc]
      exact .registers _ _ s.stale _ _ (fun _ => .inl (advance_even s (.inr rfl)))

theorem State.csrValue_cases {c : CsrName} {v : Word} (h : s.csrValue c = .ok v t) : SameOrDrawn s t := by
  cases c <;> simp only [State.csrValue, State.pmpaddrValue, State.channelValue] at h
  case pmpaddr => cases h; exact .inr rfl
  case tdata1 => split at h <;> cases h <;> first | exact .inl rfl | exact .inr rfl
  case tdata2 => split at h <;> cases h <;> first | exact .inl rfl | exact .inr rfl
  all_goals cases h; exact .inl rfl

theorem Effect.csrInstr {op : CsrOp} {rd : Reg} {a : BitVec 12} {src : Word} {z : Bool} {bits : Word}
    (h : s.csrInstr op rd a src z bits = .next t) : Effect i s t := by
  unfold State.csrInstr at h
  simp only at h
  split at h
  · exact .interrupted (State.raiseExc_interrupted h)
  · rename_i c hc
    have key : ∀ (old : Word) (s1 : State), SameOrDrawn s s1 →
        s.run (if (decide (op = .write) || !z) = true then s1.csrWrite c (csrNew op old src) else .ok () s1)
          (fun _ s2 => s2.retire rd old 4) = .next t → Effect i s t := by
      intro old s1 h1 hr
      rcases State.run_completes hr with ⟨_, s2, hw, hk⟩ | h
      · cases hk
        refine .csr a _ c hc s1 s2 h1 ?_ rd old
        split at hw
        · exact .inr ⟨_, by assumption, hw⟩
        · cases hw; exact .inl ⟨by simp_all, rfl⟩
      · exact .interrupted h
    rcases State.run_completes h with ⟨old, s1, hr, hk⟩ | h
    · split at hr
      · exact key old s1 (State.csrValue_cases hr) hk
      · cases hr; exact key 0 s (.inl rfl) hk
    · exact .interrupted h

theorem Effect.fenceI (h : (.next { s.advance 4 with stale := [] } : Outcome) = .next t) : Effect i s t := by
  cases h; exact .registers s.regs _ [] s.resv s.freeIndex (fun _ => .inl (advance_even s (.inr rfl)))

theorem Effect.breakpoint (h : s.breakpoint = .next t) : Effect i s t := by
  unfold State.breakpoint at h
  split at h
  · cases h; exact .bufferDone ‹_›
  · split at h
    · cases h; exact .halted ‹_›
    · exact .interrupted (State.raiseExc_interrupted h)

theorem Effect.mret (h : execMret s = .next t) : Effect .mret s t := by
  unfold execMret at h
  split at h
  · exact Effect.illegal h
  · exact .returned rfl ‹_› h

theorem Effect.wfi (h : execWfi s = .next t) : Effect i s t := by
  unfold execWfi at h
  split at h
  · cases h; exact .slept s.sleep s.eventLatch
  · split at h
    · cases h; exact .slept s.sleep false
    · cases h; exact .slept _ s.eventLatch

end

/-- A next state of an instruction has one of the shapes. -/
theorem exec_effect {i : Instr} {s t : State} (h : exec i s = .next t) : Effect i s t := by
  cases i with
  | lui _ _ => exact Effect.retire h (.inr rfl)
  | auipc _ _ => exact Effect.retire h (.inr rfl)
  | jal _ _ => exact Effect.jump h (fun hw => .inl (evenOffset_add (by simpa only [Instr.wf] using hw)))
  | jalr _ _ _ => exact Effect.jump h (fun _ => .inr (clearBit0_even _))
  | beq _ _ _ => exact Effect.branch h (fun hw => evenOffset_sext (by simpa only [Instr.wf] using hw)) (.inr rfl)
  | bne _ _ _ => exact Effect.branch h (fun hw => evenOffset_sext (by simpa only [Instr.wf] using hw)) (.inr rfl)
  | blt _ _ _ => exact Effect.branch h (fun hw => evenOffset_sext (by simpa only [Instr.wf] using hw)) (.inr rfl)
  | bge _ _ _ => exact Effect.branch h (fun hw => evenOffset_sext (by simpa only [Instr.wf] using hw)) (.inr rfl)
  | bltu _ _ _ => exact Effect.branch h (fun hw => evenOffset_sext (by simpa only [Instr.wf] using hw)) (.inr rfl)
  | bgeu _ _ _ => exact Effect.branch h (fun hw => evenOffset_sext (by simpa only [Instr.wf] using hw)) (.inr rfl)
  | lb _ _ _ => exact Effect.load h (.inr rfl)
  | lh _ _ _ => exact Effect.load h (.inr rfl)
  | lw _ _ _ => exact Effect.load h (.inr rfl)
  | lbu _ _ _ => exact Effect.load h (.inr rfl)
  | lhu _ _ _ => exact Effect.load h (.inr rfl)
  | sb _ _ _ => exact Effect.store h (.inr rfl)
  | sh _ _ _ => exact Effect.store h (.inr rfl)
  | sw _ _ _ => exact Effect.store h (.inr rfl)
  | addi _ _ _ => exact Effect.retire h (.inr rfl)
  | slti _ _ _ => exact Effect.retire h (.inr rfl)
  | sltiu _ _ _ => exact Effect.retire h (.inr rfl)
  | xori _ _ _ => exact Effect.retire h (.inr rfl)
  | ori _ _ _ => exact Effect.retire h (.inr rfl)
  | andi _ _ _ => exact Effect.retire h (.inr rfl)
  | slli _ _ _ => exact Effect.retire h (.inr rfl)
  | srli _ _ _ => exact Effect.retire h (.inr rfl)
  | srai _ _ _ => exact Effect.retire h (.inr rfl)
  | add _ _ _ => exact Effect.retire h (.inr rfl)
  | sub _ _ _ => exact Effect.retire h (.inr rfl)
  | sll _ _ _ => exact Effect.retire h (.inr rfl)
  | slt _ _ _ => exact Effect.retire h (.inr rfl)
  | sltu _ _ _ => exact Effect.retire h (.inr rfl)
  | xor _ _ _ => exact Effect.retire h (.inr rfl)
  | srl _ _ _ => exact Effect.retire h (.inr rfl)
  | sra _ _ _ => exact Effect.retire h (.inr rfl)
  | or _ _ _ => exact Effect.retire h (.inr rfl)
  | and _ _ _ => exact Effect.retire h (.inr rfl)
  | fence _ _ _ _ _ => exact Effect.goto h (fun _ => .inl (advance_even s (.inr rfl)))
  | fenceI _ _ _ => exact Effect.fenceI h
  | ecall => exact .interrupted (State.raiseExc_interrupted h)
  | ebreak => exact Effect.breakpoint h
  | mret => exact Effect.mret h
  | wfi => exact Effect.wfi h
  | csrrw _ _ _ => exact Effect.csrInstr h
  | csrrs _ _ _ => exact Effect.csrInstr h
  | csrrc _ _ _ => exact Effect.csrInstr h
  | csrrwi _ _ _ => exact Effect.csrInstr h
  | csrrsi _ _ _ => exact Effect.csrInstr h
  | csrrci _ _ _ => exact Effect.csrInstr h
  | mul _ _ _ => exact Effect.retire h (.inr rfl)
  | mulh _ _ _ => exact Effect.retire h (.inr rfl)
  | mulhsu _ _ _ => exact Effect.retire h (.inr rfl)
  | mulhu _ _ _ => exact Effect.retire h (.inr rfl)
  | div _ _ _ => exact Effect.retire h (.inr rfl)
  | divu _ _ _ => exact Effect.retire h (.inr rfl)
  | rem _ _ _ => exact Effect.retire h (.inr rfl)
  | remu _ _ _ => exact Effect.retire h (.inr rfl)
  | lrW _ _ _ _ => exact Effect.withA (fun h => Effect.lrW h) h
  | scW _ _ _ _ _ => exact Effect.withA (fun h => Effect.scW h) h
  | amoswapW _ _ _ _ _ => exact Effect.withA (fun h => Effect.amo h) h
  | amoaddW _ _ _ _ _ => exact Effect.withA (fun h => Effect.amo h) h
  | amoxorW _ _ _ _ _ => exact Effect.withA (fun h => Effect.amo h) h
  | amoandW _ _ _ _ _ => exact Effect.withA (fun h => Effect.amo h) h
  | amoorW _ _ _ _ _ => exact Effect.withA (fun h => Effect.amo h) h
  | amominW _ _ _ _ _ => exact Effect.withA (fun h => Effect.amo h) h
  | amomaxW _ _ _ _ _ => exact Effect.withA (fun h => Effect.amo h) h
  | amominuW _ _ _ _ _ => exact Effect.withA (fun h => Effect.amo h) h
  | amomaxuW _ _ _ _ _ => exact Effect.withA (fun h => Effect.amo h) h
  | sh1add _ _ _ => exact Effect.withB (fun h => Effect.retire h (.inr rfl)) h
  | sh2add _ _ _ => exact Effect.withB (fun h => Effect.retire h (.inr rfl)) h
  | sh3add _ _ _ => exact Effect.withB (fun h => Effect.retire h (.inr rfl)) h
  | andn _ _ _ => exact Effect.withB (fun h => Effect.retire h (.inr rfl)) h
  | orn _ _ _ => exact Effect.withB (fun h => Effect.retire h (.inr rfl)) h
  | xnor _ _ _ => exact Effect.withB (fun h => Effect.retire h (.inr rfl)) h
  | clz _ _ => exact Effect.withB (fun h => Effect.retire h (.inr rfl)) h
  | ctz _ _ => exact Effect.withB (fun h => Effect.retire h (.inr rfl)) h
  | cpop _ _ => exact Effect.withB (fun h => Effect.retire h (.inr rfl)) h
  | max _ _ _ => exact Effect.withB (fun h => Effect.retire h (.inr rfl)) h
  | maxu _ _ _ => exact Effect.withB (fun h => Effect.retire h (.inr rfl)) h
  | min _ _ _ => exact Effect.withB (fun h => Effect.retire h (.inr rfl)) h
  | minu _ _ _ => exact Effect.withB (fun h => Effect.retire h (.inr rfl)) h
  | sextB _ _ => exact Effect.withB (fun h => Effect.retire h (.inr rfl)) h
  | sextH _ _ => exact Effect.withB (fun h => Effect.retire h (.inr rfl)) h
  | zextH _ _ => exact Effect.withB (fun h => Effect.retire h (.inr rfl)) h
  | rol _ _ _ => exact Effect.withB (fun h => Effect.retire h (.inr rfl)) h
  | ror _ _ _ => exact Effect.withB (fun h => Effect.retire h (.inr rfl)) h
  | rori _ _ _ => exact Effect.withB (fun h => Effect.retire h (.inr rfl)) h
  | orcB _ _ => exact Effect.withB (fun h => Effect.retire h (.inr rfl)) h
  | rev8 _ _ => exact Effect.withB (fun h => Effect.retire h (.inr rfl)) h
  | clmul _ _ _ => exact Effect.withB (fun h => Effect.retire h (.inr rfl)) h
  | clmulh _ _ _ => exact Effect.withB (fun h => Effect.retire h (.inr rfl)) h
  | clmulr _ _ _ => exact Effect.withB (fun h => Effect.retire h (.inr rfl)) h
  | bclr _ _ _ => exact Effect.withB (fun h => Effect.retire h (.inr rfl)) h
  | bclri _ _ _ => exact Effect.withB (fun h => Effect.retire h (.inr rfl)) h
  | bext _ _ _ => exact Effect.withB (fun h => Effect.retire h (.inr rfl)) h
  | bexti _ _ _ => exact Effect.withB (fun h => Effect.retire h (.inr rfl)) h
  | binv _ _ _ => exact Effect.withB (fun h => Effect.retire h (.inr rfl)) h
  | binvi _ _ _ => exact Effect.withB (fun h => Effect.retire h (.inr rfl)) h
  | bset _ _ _ => exact Effect.withB (fun h => Effect.retire h (.inr rfl)) h
  | bseti _ _ _ => exact Effect.withB (fun h => Effect.retire h (.inr rfl)) h
  | cAddi4spn _ _ => exact Effect.retire h (.inl rfl)
  | cLw _ _ _ => exact Effect.load h (.inl rfl)
  | cSw _ _ _ => exact Effect.store h (.inl rfl)
  | cNop _ => exact Effect.goto h (fun _ => .inl (advance_even s (.inl rfl)))
  | cAddi _ _ => exact Effect.retire h (.inl rfl)
  | cJal _ => exact Effect.jump h (fun hw => .inl (evenOffset_add (by simpa only [Instr.wf] using hw)))
  | cLi _ _ => exact Effect.retire h (.inl rfl)
  | cAddi16sp _ => exact Effect.retire h (.inl rfl)
  | cLui _ _ => exact Effect.retire h (.inl rfl)
  | cSrli _ _ => exact Effect.retire h (.inl rfl)
  | cSrai _ _ => exact Effect.retire h (.inl rfl)
  | cAndi _ _ => exact Effect.retire h (.inl rfl)
  | cSub _ _ => exact Effect.retire h (.inl rfl)
  | cXor _ _ => exact Effect.retire h (.inl rfl)
  | cOr _ _ => exact Effect.retire h (.inl rfl)
  | cAnd _ _ => exact Effect.retire h (.inl rfl)
  | cJ _ => exact Effect.goto h (fun hw => .inl (evenOffset_add (by simpa only [Instr.wf] using hw)))
  | cBeqz _ _ => exact Effect.branch h (fun hw => evenOffset_sext (by simpa only [Instr.wf] using hw)) (.inl rfl)
  | cBnez _ _ => exact Effect.branch h (fun hw => evenOffset_sext (by simpa only [Instr.wf] using hw)) (.inl rfl)
  | cSlli _ _ => exact Effect.retire h (.inl rfl)
  | cLwsp _ _ => exact Effect.load h (.inl rfl)
  | cJr _ => exact Effect.goto h (fun _ => .inr (clearBit0_even _))
  | cMv _ _ => exact Effect.retire h (.inl rfl)
  | cEbreak => exact Effect.breakpoint h
  | cJalr _ => exact Effect.jump h (fun _ => .inr (clearBit0_even _))
  | cAdd _ _ => exact Effect.retire h (.inl rfl)
  | cSwsp _ _ => exact Effect.store h (.inl rfl)

end Sys2Proof.Machine
end

