-- ==== Sys2Proof/Laws/PerInstr.lean ====
section
/-! SUPPORT. Statements made for every instruction as syntax, one lemma a constructor. `EncodeLength`: the low two bits
of an encoding tell its length, 0b11 for 32 bits and any other value for 16 bits (spec/30_encoding.md R170). -/

namespace Sys2Proof.Laws.EncodeLength

/-- The low two bits of the first parcel say how long the encoding is. -/
def Statement (i : Instr) : Prop :=
  match encode i with
  | .half p => p.extractLsb' 0 2 ≠ 3#2
  | .word w => w.extractLsb' 0 2 = 3#2

/-- The low bits of an encoding are those of its last field. -/
theorem low_append {n k : Nat} (x : BitVec n) (op : BitVec k) (hk : 2 ≤ k) :
    (x ++ op).extractLsb' 0 2 = op.extractLsb' 0 2 := by
  ext i hi
  have : i < k := by omega
  simp [BitVec.getLsbD_append, this]

theorem word_low (x : BitVec 25) (op : BitVec 7) (h : op.extractLsb' 0 2 = 3#2) :
    (x ++ op : Word).extractLsb' 0 2 = 3#2 := (low_append x op (by omega)).trans h

theorem half_low (x : BitVec 14) (op : BitVec 2) (h : op.extractLsb' 0 2 ≠ 3#2) :
    (x ++ op : Half).extractLsb' 0 2 ≠ 3#2 := by rw [low_append x op (by omega)]; exact h

theorem lui (rd : Reg) (imm : BitVec 20) : Statement (.lui rd imm) := word_low _ _ (by decide)
theorem auipc (rd : Reg) (imm : BitVec 20) : Statement (.auipc rd imm) := word_low _ _ (by decide)
theorem jal (rd : Reg) (off : BitVec 21) : Statement (.jal rd off) := word_low _ _ (by decide)
theorem jalr (rd rs1 : Reg) (imm : BitVec 12) : Statement (.jalr rd rs1 imm) := word_low _ _ (by decide)
theorem beq (rs1 rs2 : Reg) (off : BitVec 13) : Statement (.beq rs1 rs2 off) := word_low _ _ (by decide)
theorem bne (rs1 rs2 : Reg) (off : BitVec 13) : Statement (.bne rs1 rs2 off) := word_low _ _ (by decide)
theorem blt (rs1 rs2 : Reg) (off : BitVec 13) : Statement (.blt rs1 rs2 off) := word_low _ _ (by decide)
theorem bge (rs1 rs2 : Reg) (off : BitVec 13) : Statement (.bge rs1 rs2 off) := word_low _ _ (by decide)
theorem bltu (rs1 rs2 : Reg) (off : BitVec 13) : Statement (.bltu rs1 rs2 off) := word_low _ _ (by decide)
theorem bgeu (rs1 rs2 : Reg) (off : BitVec 13) : Statement (.bgeu rs1 rs2 off) := word_low _ _ (by decide)
theorem lb (rd rs1 : Reg) (imm : BitVec 12) : Statement (.lb rd rs1 imm) := word_low _ _ (by decide)
theorem lh (rd rs1 : Reg) (imm : BitVec 12) : Statement (.lh rd rs1 imm) := word_low _ _ (by decide)
theorem lw (rd rs1 : Reg) (imm : BitVec 12) : Statement (.lw rd rs1 imm) := word_low _ _ (by decide)
theorem lbu (rd rs1 : Reg) (imm : BitVec 12) : Statement (.lbu rd rs1 imm) := word_low _ _ (by decide)
theorem lhu (rd rs1 : Reg) (imm : BitVec 12) : Statement (.lhu rd rs1 imm) := word_low _ _ (by decide)
theorem sb (rs2 rs1 : Reg) (imm : BitVec 12) : Statement (.sb rs2 rs1 imm) := word_low _ _ (by decide)
theorem sh (rs2 rs1 : Reg) (imm : BitVec 12) : Statement (.sh rs2 rs1 imm) := word_low _ _ (by decide)
theorem sw (rs2 rs1 : Reg) (imm : BitVec 12) : Statement (.sw rs2 rs1 imm) := word_low _ _ (by decide)
theorem addi (rd rs1 : Reg) (imm : BitVec 12) : Statement (.addi rd rs1 imm) := word_low _ _ (by decide)
theorem slti (rd rs1 : Reg) (imm : BitVec 12) : Statement (.slti rd rs1 imm) := word_low _ _ (by decide)
theorem sltiu (rd rs1 : Reg) (imm : BitVec 12) : Statement (.sltiu rd rs1 imm) := word_low _ _ (by decide)
theorem xori (rd rs1 : Reg) (imm : BitVec 12) : Statement (.xori rd rs1 imm) := word_low _ _ (by decide)
theorem ori (rd rs1 : Reg) (imm : BitVec 12) : Statement (.ori rd rs1 imm) := word_low _ _ (by decide)
theorem andi (rd rs1 : Reg) (imm : BitVec 12) : Statement (.andi rd rs1 imm) := word_low _ _ (by decide)
theorem slli (rd rs1 : Reg) (shamt : BitVec 5) : Statement (.slli rd rs1 shamt) := word_low _ _ (by decide)
theorem srli (rd rs1 : Reg) (shamt : BitVec 5) : Statement (.srli rd rs1 shamt) := word_low _ _ (by decide)
theorem srai (rd rs1 : Reg) (shamt : BitVec 5) : Statement (.srai rd rs1 shamt) := word_low _ _ (by decide)
theorem add (rd rs1 rs2 : Reg) : Statement (.add rd rs1 rs2) := word_low _ _ (by decide)
theorem sub (rd rs1 rs2 : Reg) : Statement (.sub rd rs1 rs2) := word_low _ _ (by decide)
theorem sll (rd rs1 rs2 : Reg) : Statement (.sll rd rs1 rs2) := word_low _ _ (by decide)
theorem slt (rd rs1 rs2 : Reg) : Statement (.slt rd rs1 rs2) := word_low _ _ (by decide)
theorem sltu (rd rs1 rs2 : Reg) : Statement (.sltu rd rs1 rs2) := word_low _ _ (by decide)
theorem xor (rd rs1 rs2 : Reg) : Statement (.xor rd rs1 rs2) := word_low _ _ (by decide)
theorem srl (rd rs1 rs2 : Reg) : Statement (.srl rd rs1 rs2) := word_low _ _ (by decide)
theorem sra (rd rs1 rs2 : Reg) : Statement (.sra rd rs1 rs2) := word_low _ _ (by decide)
theorem or (rd rs1 rs2 : Reg) : Statement (.or rd rs1 rs2) := word_low _ _ (by decide)
theorem and (rd rs1 rs2 : Reg) : Statement (.and rd rs1 rs2) := word_low _ _ (by decide)
theorem fence (fm pred succ : BitVec 4) (rs1 rd : Reg) : Statement (.fence fm pred succ rs1 rd) :=
  word_low _ _ (by decide)
theorem fenceI (imm : BitVec 12) (rs1 rd : Reg) : Statement (.fenceI imm rs1 rd) := word_low _ _ (by decide)
theorem ecall : Statement .ecall := word_low _ _ (by decide)
theorem ebreak : Statement .ebreak := word_low _ _ (by decide)
theorem mret : Statement .mret := word_low _ _ (by decide)
theorem wfi : Statement .wfi := word_low _ _ (by decide)
theorem csrrw (rd : Reg) (csr : BitVec 12) (rs1 : Reg) : Statement (.csrrw rd csr rs1) := word_low _ _ (by decide)
theorem csrrs (rd : Reg) (csr : BitVec 12) (rs1 : Reg) : Statement (.csrrs rd csr rs1) := word_low _ _ (by decide)
theorem csrrc (rd : Reg) (csr : BitVec 12) (rs1 : Reg) : Statement (.csrrc rd csr rs1) := word_low _ _ (by decide)
theorem csrrwi (rd : Reg) (csr : BitVec 12) (uimm : BitVec 5) : Statement (.csrrwi rd csr uimm) :=
  word_low _ _ (by decide)
theorem csrrsi (rd : Reg) (csr : BitVec 12) (uimm : BitVec 5) : Statement (.csrrsi rd csr uimm) :=
  word_low _ _ (by decide)
theorem csrrci (rd : Reg) (csr : BitVec 12) (uimm : BitVec 5) : Statement (.csrrci rd csr uimm) :=
  word_low _ _ (by decide)
theorem mul (rd rs1 rs2 : Reg) : Statement (.mul rd rs1 rs2) := word_low _ _ (by decide)
theorem mulh (rd rs1 rs2 : Reg) : Statement (.mulh rd rs1 rs2) := word_low _ _ (by decide)
theorem mulhsu (rd rs1 rs2 : Reg) : Statement (.mulhsu rd rs1 rs2) := word_low _ _ (by decide)
theorem mulhu (rd rs1 rs2 : Reg) : Statement (.mulhu rd rs1 rs2) := word_low _ _ (by decide)
theorem div (rd rs1 rs2 : Reg) : Statement (.div rd rs1 rs2) := word_low _ _ (by decide)
theorem divu (rd rs1 rs2 : Reg) : Statement (.divu rd rs1 rs2) := word_low _ _ (by decide)
theorem rem (rd rs1 rs2 : Reg) : Statement (.rem rd rs1 rs2) := word_low _ _ (by decide)
theorem remu (rd rs1 rs2 : Reg) : Statement (.remu rd rs1 rs2) := word_low _ _ (by decide)
theorem lrW (aq rl : Bool) (rd rs1 : Reg) : Statement (.lrW aq rl rd rs1) := word_low _ _ (by decide)
theorem scW (aq rl : Bool) (rd rs2 rs1 : Reg) : Statement (.scW aq rl rd rs2 rs1) := word_low _ _ (by decide)
theorem amoswapW (aq rl : Bool) (rd rs2 rs1 : Reg) : Statement (.amoswapW aq rl rd rs2 rs1) :=
  word_low _ _ (by decide)
theorem amoaddW (aq rl : Bool) (rd rs2 rs1 : Reg) : Statement (.amoaddW aq rl rd rs2 rs1) := word_low _ _ (by decide)
theorem amoxorW (aq rl : Bool) (rd rs2 rs1 : Reg) : Statement (.amoxorW aq rl rd rs2 rs1) := word_low _ _ (by decide)
theorem amoandW (aq rl : Bool) (rd rs2 rs1 : Reg) : Statement (.amoandW aq rl rd rs2 rs1) := word_low _ _ (by decide)
theorem amoorW (aq rl : Bool) (rd rs2 rs1 : Reg) : Statement (.amoorW aq rl rd rs2 rs1) := word_low _ _ (by decide)
theorem amominW (aq rl : Bool) (rd rs2 rs1 : Reg) : Statement (.amominW aq rl rd rs2 rs1) := word_low _ _ (by decide)
theorem amomaxW (aq rl : Bool) (rd rs2 rs1 : Reg) : Statement (.amomaxW aq rl rd rs2 rs1) := word_low _ _ (by decide)
theorem amominuW (aq rl : Bool) (rd rs2 rs1 : Reg) : Statement (.amominuW aq rl rd rs2 rs1) :=
  word_low _ _ (by decide)
theorem amomaxuW (aq rl : Bool) (rd rs2 rs1 : Reg) : Statement (.amomaxuW aq rl rd rs2 rs1) :=
  word_low _ _ (by decide)
theorem sh1add (rd rs1 rs2 : Reg) : Statement (.sh1add rd rs1 rs2) := word_low _ _ (by decide)
theorem sh2add (rd rs1 rs2 : Reg) : Statement (.sh2add rd rs1 rs2) := word_low _ _ (by decide)
theorem sh3add (rd rs1 rs2 : Reg) : Statement (.sh3add rd rs1 rs2) := word_low _ _ (by decide)
theorem andn (rd rs1 rs2 : Reg) : Statement (.andn rd rs1 rs2) := word_low _ _ (by decide)
theorem orn (rd rs1 rs2 : Reg) : Statement (.orn rd rs1 rs2) := word_low _ _ (by decide)
theorem xnor (rd rs1 rs2 : Reg) : Statement (.xnor rd rs1 rs2) := word_low _ _ (by decide)
theorem clz (rd rs1 : Reg) : Statement (.clz rd rs1) := word_low _ _ (by decide)
theorem ctz (rd rs1 : Reg) : Statement (.ctz rd rs1) := word_low _ _ (by decide)
theorem cpop (rd rs1 : Reg) : Statement (.cpop rd rs1) := word_low _ _ (by decide)
theorem max (rd rs1 rs2 : Reg) : Statement (.max rd rs1 rs2) := word_low _ _ (by decide)
theorem maxu (rd rs1 rs2 : Reg) : Statement (.maxu rd rs1 rs2) := word_low _ _ (by decide)
theorem min (rd rs1 rs2 : Reg) : Statement (.min rd rs1 rs2) := word_low _ _ (by decide)
theorem minu (rd rs1 rs2 : Reg) : Statement (.minu rd rs1 rs2) := word_low _ _ (by decide)
theorem sextB (rd rs1 : Reg) : Statement (.sextB rd rs1) := word_low _ _ (by decide)
theorem sextH (rd rs1 : Reg) : Statement (.sextH rd rs1) := word_low _ _ (by decide)
theorem zextH (rd rs1 : Reg) : Statement (.zextH rd rs1) := word_low _ _ (by decide)
theorem rol (rd rs1 rs2 : Reg) : Statement (.rol rd rs1 rs2) := word_low _ _ (by decide)
theorem ror (rd rs1 rs2 : Reg) : Statement (.ror rd rs1 rs2) := word_low _ _ (by decide)
theorem rori (rd rs1 : Reg) (shamt : BitVec 5) : Statement (.rori rd rs1 shamt) := word_low _ _ (by decide)
theorem orcB (rd rs1 : Reg) : Statement (.orcB rd rs1) := word_low _ _ (by decide)
theorem rev8 (rd rs1 : Reg) : Statement (.rev8 rd rs1) := word_low _ _ (by decide)
theorem clmul (rd rs1 rs2 : Reg) : Statement (.clmul rd rs1 rs2) := word_low _ _ (by decide)
theorem clmulh (rd rs1 rs2 : Reg) : Statement (.clmulh rd rs1 rs2) := word_low _ _ (by decide)
theorem clmulr (rd rs1 rs2 : Reg) : Statement (.clmulr rd rs1 rs2) := word_low _ _ (by decide)
theorem bclr (rd rs1 rs2 : Reg) : Statement (.bclr rd rs1 rs2) := word_low _ _ (by decide)
theorem bclri (rd rs1 : Reg) (shamt : BitVec 5) : Statement (.bclri rd rs1 shamt) := word_low _ _ (by decide)
theorem bext (rd rs1 rs2 : Reg) : Statement (.bext rd rs1 rs2) := word_low _ _ (by decide)
theorem bexti (rd rs1 : Reg) (shamt : BitVec 5) : Statement (.bexti rd rs1 shamt) := word_low _ _ (by decide)
theorem binv (rd rs1 rs2 : Reg) : Statement (.binv rd rs1 rs2) := word_low _ _ (by decide)
theorem binvi (rd rs1 : Reg) (shamt : BitVec 5) : Statement (.binvi rd rs1 shamt) := word_low _ _ (by decide)
theorem bset (rd rs1 rs2 : Reg) : Statement (.bset rd rs1 rs2) := word_low _ _ (by decide)
theorem bseti (rd rs1 : Reg) (shamt : BitVec 5) : Statement (.bseti rd rs1 shamt) := word_low _ _ (by decide)
theorem cAddi4spn (rd' : CReg) (uimm : BitVec 10) : Statement (.cAddi4spn rd' uimm) := half_low _ _ (by decide)
theorem cLw (rd' rs1' : CReg) (uimm : BitVec 7) : Statement (.cLw rd' rs1' uimm) := half_low _ _ (by decide)
theorem cSw (rs2' rs1' : CReg) (uimm : BitVec 7) : Statement (.cSw rs2' rs1' uimm) := half_low _ _ (by decide)
theorem cNop (imm : BitVec 6) : Statement (.cNop imm) := half_low _ _ (by decide)
theorem cAddi (rd : Reg) (imm : BitVec 6) : Statement (.cAddi rd imm) := half_low _ _ (by decide)
theorem cJal (off : BitVec 12) : Statement (.cJal off) := half_low _ _ (by decide)
theorem cLi (rd : Reg) (imm : BitVec 6) : Statement (.cLi rd imm) := half_low _ _ (by decide)
theorem cAddi16sp (imm : BitVec 10) : Statement (.cAddi16sp imm) := half_low _ _ (by decide)
theorem cLui (rd : Reg) (imm : BitVec 6) : Statement (.cLui rd imm) := half_low _ _ (by decide)
theorem cSrli (rd' : CReg) (shamt : BitVec 5) : Statement (.cSrli rd' shamt) := half_low _ _ (by decide)
theorem cSrai (rd' : CReg) (shamt : BitVec 5) : Statement (.cSrai rd' shamt) := half_low _ _ (by decide)
theorem cAndi (rd' : CReg) (imm : BitVec 6) : Statement (.cAndi rd' imm) := half_low _ _ (by decide)
theorem cSub (rd' rs2' : CReg) : Statement (.cSub rd' rs2') := half_low _ _ (by decide)
theorem cXor (rd' rs2' : CReg) : Statement (.cXor rd' rs2') := half_low _ _ (by decide)
theorem cOr (rd' rs2' : CReg) : Statement (.cOr rd' rs2') := half_low _ _ (by decide)
theorem cAnd (rd' rs2' : CReg) : Statement (.cAnd rd' rs2') := half_low _ _ (by decide)
theorem cJ (off : BitVec 12) : Statement (.cJ off) := half_low _ _ (by decide)
theorem cBeqz (rs1' : CReg) (off : BitVec 9) : Statement (.cBeqz rs1' off) := half_low _ _ (by decide)
theorem cBnez (rs1' : CReg) (off : BitVec 9) : Statement (.cBnez rs1' off) := half_low _ _ (by decide)
theorem cSlli (rd : Reg) (shamt : BitVec 5) : Statement (.cSlli rd shamt) := half_low _ _ (by decide)
theorem cLwsp (rd : Reg) (uimm : BitVec 8) : Statement (.cLwsp rd uimm) := half_low _ _ (by decide)
theorem cJr (rs1 : Reg) : Statement (.cJr rs1) := half_low _ _ (by decide)
theorem cMv (rd rs2 : Reg) : Statement (.cMv rd rs2) := half_low _ _ (by decide)
theorem cEbreak : Statement .cEbreak := half_low _ _ (by decide)
theorem cJalr (rs1 : Reg) : Statement (.cJalr rs1) := half_low _ _ (by decide)
theorem cAdd (rd rs2 : Reg) : Statement (.cAdd rd rs2) := half_low _ _ (by decide)
theorem cSwsp (rs2 : Reg) (uimm : BitVec 8) : Statement (.cSwsp rs2 uimm) := half_low _ _ (by decide)

end Sys2Proof.Laws.EncodeLength
end

