-- ==== Sys2Proof/Laws/Step.lean ====
section
/-! SUPPORT. What a whole step can do, once: `step_keeps` says that a property of states which the few kinds of change
listed in `Kept` preserve is preserved by every step, whatever the step is. -/

namespace Sys2Proof.Machine

/-- A CSR write changes CSRs, and the pairing of the hardware stack where it switches it (R277, R446). -/
theorem State.csrWrite_frame {s t : State} {c : CsrName} {v : Word} {u : Unit} (h : s.csrWrite c v = .ok u t) :
    t = { s with csr := t.csr, hpe := t.hpe } := by
  cases c <;> simp only [State.csrWrite, State.writeMstatus, State.writePmpcfg, State.writeDcsr, State.writeCorecfgr,
    State.writeMtvec, State.writePmpaddr, State.writeTdata1, State.writeTdata2, State.writeGintenr,
    State.writeIntsyscr, State.writeInestcr] at h <;> (try split at h) <;> cases h <;> rfl

/-- The fields a kept property may depend on are the same. -/
structure SameCore (s t : State) : Prop where
  cfg : t.cfg = s.cfg
  pc : t.pc = s.pc
  csr : t.csr = s.csr
  mem : t.mem = s.mem
  pfic : t.pfic = s.pfic
  stk : t.stk = s.stk
  handlers : t.handlers = s.handlers

/-! ## What the parts of a step can do -/

/-- What a vendor word does where it goes on: the illegal-instruction exception on V3A, elsewhere the meaning that
`XW_DECODE` lists for it (R402, R406). -/
theorem State.vendor_cases {s t : State} {bits len : Word} (h : s.vendor bits len = .next t) :
    (s.cfg.model = .v3a ∧ s.raiseExc (.illegalInstruction bits) = .next t) ∨
      (s.cfg.model ≠ .v3a ∧ ∃ m, s.cfg.xwDecode.lookup bits = some m ∧ s.vendorMeaning len m = .next t) := by
  unfold State.vendor at h
  split at h
  · exact .inl ⟨‹_›, h⟩
  · split at h
    · exact .inr ⟨‹_›, _, ‹_›, h⟩
    · cases h

/-- What stands at the pc where a halt has the cause of an `ebreak` (R572). -/
theorem State.ebreakAtPc_eq {s s' : State} (h : s.ebreakAtPc = some s') :
    s.ebreakToDebug = true ∧ ∃ bytes, s.fetch = .ok bytes s' ∧
      ∃ i n, decode bytes = .ok (i, n) ∧ (i = .ebreak ∨ i = .cEbreak) := by
  unfold State.ebreakAtPc at h
  split at h
  · split at h
    · split at h
      · split at h
        · cases h; exact ⟨‹_›, _, ‹_›, _, _, ‹_›, ‹_›⟩
        · cases h
      · cases h
    · cases h
  · cases h

/-- The three ways a halt request is served (R570, R573). -/
theorem State.halt_cases (s : State) :
    (s.firedTrigger .fetch s.pc = some true ∧ s.halt = s.enterDebugByTrigger) ∨
      (s.firedTrigger .fetch s.pc ≠ some true ∧ (s.firedTrigger .fetch s.pc = none → s.ebreakAtPc = none) ∧
        s.halt = s.enterDebug 3 s.pc) ∨
      (s.firedTrigger .fetch s.pc = none ∧ s.ebreakToDebug = true ∧ ∃ bytes s', s.fetch = .ok bytes s' ∧
        (∃ i n, decode bytes = .ok (i, n) ∧ (i = .ebreak ∨ i = .cEbreak)) ∧ s.halt = s'.enterDebug 1 s.pc) := by
  unfold State.halt
  split
  · exact .inl ⟨‹_›, rfl⟩
  · exact .inr (.inl ⟨by simp [*], by simp [*], rfl⟩)
  · split
    · obtain ⟨h1, bytes, h2, h3⟩ := State.ebreakAtPc_eq ‹_›
      exact .inr (.inr ⟨‹_›, h1, bytes, _, h2, h3, rfl⟩)
    · exact .inr (.inl ⟨by simp [*], fun _ => ‹_›, rfl⟩)

/-- What the end of a step does: nothing without a single step, else one of the causes of entry (R570, R574). -/
theorem State.endStep_cases (t : State) :
    ((t.csr.dcsr.getLsbD 2 && decide (t.dbg = .running)) = false ∧ t.endStep = t) ∨
      (t.csr.dcsr.getLsbD 2 = true ∧ t.dbg = .running ∧ t.firedTrigger .fetch t.pc = some true ∧
        t.endStep = t.enterDebugByTrigger) ∨
      (t.csr.dcsr.getLsbD 2 = true ∧ t.dbg = .running ∧ t.firedTrigger .fetch t.pc ≠ some true ∧
        t.endStep = t.enterDebug (if t.dm.haltreq then 3 else 4) t.pc) := by
  unfold State.endStep
  split
  · rename_i h
    simp only [Bool.and_eq_true, decide_eq_true_eq] at h
    unfold State.enterAfterStep
    split
    · exact .inr (.inl ⟨h.1, h.2, ‹_›, rfl⟩)
    · exact .inr (.inr ⟨h.1, h.2, ‹_›, rfl⟩)
  · exact .inl ⟨Bool.not_eq_true _ ▸ ‹_›, rfl⟩

/-- The kinds of change a step is made of, each of which keeps the property. -/
structure Kept (P : State → Prop) : Prop where
  other : ∀ {s t}, P s → SameCore s t → P t
  pc : ∀ {s a}, PcMoves s a → P s → P (s.setPc a)
  mem : ∀ {s} {cells : List Host.Cell}, (∀ c ∈ cells, c.1 < 2 ^ 32) → P s →
    P { s with mem := Memory.writeCells s.mem cells }
  device : ∀ {s t}, DeviceWritten s t → P s → P t
  timer : ∀ {s : State} {u : SysTick}, u.ctlr = s.stk.ctlr → (u.sr = s.stk.sr ∨ u.sr = s.stk.sr ||| 1) → P s →
    P { s with stk := u }
  csr : ∀ {s t c v}, s.csrWrite c v = .ok () t → P s → P t
  trap : ∀ {s cause tval slot a}, s.level < 4 → a.getLsbD 0 = false → LegalNumber s.cfg slot → P s →
    P (s.enterTrap cause tval slot a)
  ret : ∀ {s}, P s → P s.returnCore
  endHandler : ∀ {s slot rest}, s.handlers = slot :: rest → P s → P (s.endHandler slot rest.length rest)
  debug : ∀ {s cause a}, P s → P (s.enterDebug cause a)
  reset : ∀ {s}, P s → P s.systemReset

/-! ## Bit 0 of an entry address (R431, D3) -/

theorem mtvecBase_even (w : Word) : (mtvecBase w).getLsbD 0 = false := by simp [mtvecBase]

theorem vectorAddr_even (s : State) (slot : Nat) : (s.vectorAddr slot).getLsbD 0 = false := by
  unfold State.vectorAddr
  split
  · rw [getLsbD_zero_add]
    · exact mtvecBase_even _
    · simp only [BitVec.getLsbD, BitVec.toNat_ofNat, Nat.testBit_zero, decide_eq_false_iff_not]; omega
  · exact mtvecBase_even _

theorem vtfTarget_even (s : State) (k : Nat) : (s.vtfTarget k).getLsbD 0 = false := by
  unfold State.vtfTarget
  split
  · rfl
  · split <;> exact clearBit0_even _

theorem tableEntry_even {s s' : State} {slot : Nat} {a : Word} (h : s.tableEntry slot = .ok (a, s')) :
    a.getLsbD 0 = false := by
  rcases (State.tableEntry_cases h).2 with ⟨-, rfl⟩ | ⟨-, -, rfl⟩
  · exact vectorAddr_even s slot
  · exact clearBit0_even _

theorem interruptEntry_even {s s' : State} {n : Nat} {a : Word} (h : s.interruptEntry n = .ok (a, s')) :
    a.getLsbD 0 = false := by
  rcases (State.interruptEntry_cases h).2 with ⟨k, -, -, rfl⟩ | h
  · exact vtfTarget_even s k
  · exact tableEntry_even h

/-! ## The numbers that enter a handler (R423, R426, R431) -/

/-- The slot of an exception is a fixed slot. -/
theorem excSlot_legal (c : Config) (m : Model) (e : Exc) : LegalNumber c (excSlot m e) := by
  unfold LegalNumber
  rw [BitVec.getLsbD_or, Bool.or_eq_true]
  refine .inl ?_
  unfold excSlot
  split
  · decide
  · cases e <;> (dsimp only; decide)

/-- What arbitration offers was offered before or is among the numbers asked for that pass the threshold. -/
theorem State.bestOf_cases {s : State} {req : BitVec 256} : ∀ {l : List Nat} {best : Option Nat} {n : Nat},
    s.bestOf req best l = some n → best = some n ∨ (n ∈ l ∧ req.getLsbD n = true ∧ s.passesThreshold n = true)
  | [], _, _, h => .inl h
  | m :: l, best, n, h => by
    rw [State.bestOf] at h
    rcases State.bestOf_cases (l := l) h with h | ⟨h1, h2⟩
    · split at h
      · rename_i hm
        rw [Bool.and_eq_true] at hm
        unfold State.better at h
        split at h
        · cases h; exact .inr ⟨by simp, hm⟩
        · split at h
          · cases h; exact .inr ⟨by simp, hm⟩
          · exact .inl h
      · exact .inl h
    · exact .inr ⟨List.mem_cons_of_mem _ h1, h2⟩

/-- The interrupt a boundary takes: NMI, or a programmable number that is pending, enabled and let through (R426). -/
theorem State.acceptedInterrupt_cases {s : State} {n : Nat} (h : s.acceptedInterrupt = some n) :
    (n = 2 ∧ s.nmiReady = true) ∨ (s.interruptsOn = true ∧ s.bestOf s.requested none allNumbers = some n ∧
      s.requested.getLsbD n = true ∧ s.preempts n = true) := by
  unfold State.acceptedInterrupt at h
  split at h
  · cases h; exact .inl ⟨rfl, ‹_›⟩
  · unfold State.programmableWinner at h
    split at h
    · cases h
    · rename_i ho
      simp only [Bool.or_eq_true, Bool.not_eq_true', not_or, Bool.not_eq_false] at ho
      split at h
      · rename_i m hb
        split at h
        · cases h
          refine .inr ⟨ho.1, hb, ?_, ‹_›⟩
          rcases State.bestOf_cases hb with h | ⟨-, h, -⟩
          · cases h
          · exact h
        · cases h
      · cases h

theorem State.acceptedInterrupt_legal {s : State} {n : Nat} (h : s.acceptedInterrupt = some n) :
    LegalNumber s.cfg n := by
  rcases State.acceptedInterrupt_cases h with ⟨rfl, -⟩ | ⟨-, -, h, -⟩
  · unfold LegalNumber
    rw [BitVec.getLsbD_or, Bool.or_eq_true]
    exact .inl (by decide)
  · unfold LegalNumber
    unfold State.requested at h
    rw [BitVec.getLsbD_and, Bool.and_eq_true] at h
    rw [BitVec.getLsbD_or, h.2, Bool.or_true]

namespace Kept
variable {P : State → Prop} (K : Kept P) {s t : State}
include K

theorem drawn (h : P s) : P s.drawn := K.other h ⟨rfl, rfl, rfl, rfl, rfl, rfl, rfl⟩

theorem sameOrDrawn (hd : SameOrDrawn s t) (h : P s) : P t := by
  rcases hd with rfl | rfl
  · exact h
  · exact K.drawn h

theorem writeReg (rd : Reg) (v : Word) (h : P s) : P (s.writeReg rd v) :=
  K.other h ⟨by simp, by simp, by simp, by simp, by simp, by simp, by simp⟩

theorem setDm (d : DebugModule) (h : P s) : P (s.setDm d) := K.other h ⟨rfl, rfl, rfl, rfl, rfl, rfl, rfl⟩

theorem request {m : BitVec 256} (hm : LegalMask s.cfg m) (h : P s) : P (s.request m) := K.device (.request s hm) h

theorem takeException {e : Exc} (ht : s.takeException e = .next t) (h : P s) : P t := by
  obtain ⟨hl, a, s', he, rfl⟩ := State.takeException_cases ht
  have h1 := (State.tableEntry_cases he).1
  exact K.trap (by rcases h1 with rfl | rfl <;> exact hl) (tableEntry_even he) (excSlot_legal _ _ _)
    (K.sameOrDrawn h1 h)

theorem takeInterrupt {n : Nat} (hn : LegalNumber s.cfg n) (ht : s.takeInterrupt n = .next t) (h : P s) : P t := by
  obtain ⟨hl, a, s', he, rfl⟩ := State.takeInterrupt_cases ht
  have h1 := (State.interruptEntry_cases he).1
  exact K.trap (by rcases h1 with rfl | rfl <;> exact hl) (interruptEntry_even he)
    (by rcases h1 with rfl | rfl <;> exact hn) (K.sameOrDrawn h1 h)

theorem trapReturn (ht : s.trapReturn = .next t) (h : P s) : P t := by
  rcases State.trapReturn_cases ht with ⟨-, rfl⟩ | ⟨slot, rest, hh, -, rfl⟩
  · exact K.ret h
  · exact K.endHandler hh (K.ret h)

theorem byTrigger (h : P s) : P s.enterDebugByTrigger := K.debug (K.drawn h)

theorem interrupted (hi : Interrupted s t) (h : P s) : P t := by
  rcases hi with ⟨e, -, he⟩ | ⟨-, rfl⟩ | rfl
  · exact K.takeException he h
  · exact K.other h ⟨rfl, rfl, rfl, rfl, rfl, rfl, rfl⟩
  · exact K.byTrigger h

theorem written {w : Width} {a v : Word} (hw : Written s t w a v) (h : P s) : P t := by
  rcases hw with rfl | rfl | hd | hd
  · exact K.other (K.mem (storeCells_lt w a v) h) ⟨rfl, rfl, rfl, rfl, rfl, rfl, rfl⟩
  · exact K.reset h
  · exact K.device hd (K.other h ⟨rfl, rfl, rfl, rfl, rfl, rfl, rfl⟩)
  · rw [hd]; exact K.other h ⟨rfl, rfl, rfl, rfl, rfl, rfl, rfl⟩

/-- An instruction keeps the property. -/
theorem effect {i : Instr} (hw : i.wf = true) (he : Effect i s t) (h : P s) : P t := by
  cases he with
  | registers regs a stale resv n ha => exact K.other (K.pc (ha hw) h) ⟨rfl, rfl, rfl, rfl, rfl, rfl, rfl⟩
  | stored regs a resv n ha w addr v _ hwr =>
    exact K.written hwr (K.other (K.pc (ha hw) h) ⟨rfl, rfl, rfl, rfl, rfl, rfl, rfl⟩)
  | interrupted hi => exact K.interrupted hi h
  | csr a dw c hc s1 s2 h1 h2 rd old =>
    have k1 := K.sameOrDrawn h1 h
    have k2 : P s2 := by
      rcases h2 with ⟨-, rfl⟩ | ⟨v, -, h2⟩
      · exact k1
      · exact K.csr h2 k1
    exact K.pc (.inl (advance_even _ (.inr rfl))) (K.writeReg rd old k2)
  | returned _ _ hr => exact K.trapReturn hr h
  | slept sleep latch =>
    exact K.other (K.pc (.inl (advance_even s (.inr rfl))) h) ⟨rfl, rfl, rfl, rfl, rfl, rfl, rfl⟩
  | halted => exact K.debug h
  | bufferDone => exact K.other h ⟨rfl, rfl, rfl, rfl, rfl, rfl, rfl⟩

/-! ### Inputs -/

theorem tick (h : P s) : P s.tick := by
  unfold State.tick
  split
  · split
    · exact K.timer (s := s.request 0x1000) rfl (.inl rfl) (K.request (.internal _ (by decide)) h)
    · exact K.timer (s := s) rfl (.inl rfl) h
  · refine K.timer (s := s.request _) (u := tick32 s.stk) rfl ?_ (K.request (.timer _ _ _) h)
    simp only [tick32]
    split <;> split <;> first | exact .inr rfl | exact .inl rfl

theorem hclkPeriods : ∀ (k : Nat) {s : State}, P s → P (s.hclkPeriods k)
  | 0, _, h => h
  | k + 1, s, h => by
    refine hclkPeriods k ?_
    unfold State.hclkPeriod
    have hd : P { s with stk := { s.stk with div := s.stk.div + 1 } } := K.timer (s := s) rfl (.inl rfl) h
    simp only
    split
    · exact K.tick hd
    · exact hd

theorem applySignals (i : Input) (h : P s) : P (s.applySignals i) := by
  unfold State.applySignals
  split
  · exact h
  · refine K.other (K.request (fun n hn => ?_) h) ⟨rfl, rfl, rfl, rfl, rfl, rfl, rfl⟩
    rw [BitVec.getLsbD_or, Bool.or_eq_true] at hn
    rcases hn with hn | hn
    · rw [BitVec.getLsbD_and, BitVec.getLsbD_and, Bool.and_eq_true, Bool.and_eq_true] at hn
      unfold LegalNumber programmable
      rw [BitVec.getLsbD_or, BitVec.getLsbD_or, BitVec.getLsbD_and, hn.1.2, hn.2]
      simp only [Bool.and_self, Bool.or_true]
    · exact LegalMask.internal _ (by split <;> decide) n hn

theorem dmaWrite (cells : List Host.Cell) (h : P s) : P (s.dmaWrite cells) := by
  unfold State.dmaWrite
  refine K.other (K.mem (cells := cells.filter _) (fun c hc => ?_) h) ⟨rfl, rfl, rfl, rfl, rfl, rfl, rfl⟩
  have := (List.mem_filter.mp hc).2
  simp only [Bool.and_eq_true, decide_eq_true_eq] at this
  exact this.1

theorem setCmderr (e : BitVec 3) (h : P s) : P (s.setCmderr e) := K.setDm _ h

theorem postexec (h : P s) : P s.postexec := by
  unfold State.postexec
  split
  · exact K.other (s := s.setPc 0) (K.pc (.inr rfl) h) ⟨rfl, rfl, rfl, rfl, rfl, rfl, rfl⟩
  · exact h

theorem nextRegno (h : P s) : P s.nextRegno := by
  unfold State.nextRegno
  split
  · exact K.setDm _ h
  · exact h

theorem nextAddress (w : Width) (h : P s) : P (s.nextAddress w) := by
  unfold State.nextAddress
  split
  · exact K.setDm _ h
  · exact h

theorem narrow (w : Width) (v : Word) (h : P s) : P (s.narrow w v).2 := by
  unfold State.narrow
  split
  · exact h
  · exact K.drawn h

theorem finishRegister {α : Type} {s' : State} {r : Except (BitVec 3) (Res α)} {k : α → State → State} (h : P s)
    (hr : ∀ a u, r = .ok (.ok a u) → P (k a u)) (hs : s' = s.finishRegister r k) : P s' := by
  subst hs
  unfold State.finishRegister
  split
  · exact K.setCmderr _ h
  · exact K.postexec (K.nextRegno (hr _ _ rfl))
  · exact K.setCmderr _ h

theorem commandWrite {regno : Half} {v : Word} {a : Unit} {u : State} (h : P s)
    (hw : s.commandWrite regno v = .ok (.ok a u)) : P u := by
  unfold State.commandWrite at hw
  split at hw
  · split at hw
    · simp only [Except.ok.injEq] at hw; exact K.csr hw h
    · cases hw
  · split at hw
    · cases hw; exact K.writeReg _ _ h
    · cases hw

theorem commandRead {regno : Half} {v : Word} {u : State} (h : P s) (hr : s.commandRead regno = .ok (.ok v u)) :
    P u := by
  unfold State.commandRead at hr
  split at hr
  · split at hr
    · simp only [Except.ok.injEq] at hr; exact K.sameOrDrawn (State.csrValue_cases hr) h
    · cases hr
  · split at hr
    · cases hr; exact h
    · cases hr

theorem accessRegister (h : P s) : P s.accessRegister := by
  unfold State.accessRegister
  simp only
  split
  · exact K.postexec h
  · split
    · exact K.setCmderr _ h
    · rename_i w _
      split
      · exact K.finishRegister h (fun a u hu => K.commandWrite (K.narrow w _ h) hu) rfl
      · exact K.finishRegister h (fun a u hu => K.setDm _ (K.narrow w _ (K.commandRead h hu))) rfl

theorem finishMemory {α : Type} {r : Res α} {k : α → State → State} (h : P s)
    (hr : ∀ a u, r = .ok a u → P (k a u)) (hs : s.finishMemory r k = .ok () t) : P t := by
  unfold State.finishMemory at hs
  split at hs
  · cases hs; exact hr _ _ rfl
  · cases hs; exact K.setCmderr _ h
  · cases hs; exact K.setCmderr _ h
  · cases hs; exact K.setCmderr _ h
  · cases hs

theorem memoryDone (w : Width) (a : Word) (h : P s) : P (s.memoryDone w a) :=
  K.other (K.postexec (K.nextAddress w h)) ⟨rfl, rfl, rfl, rfl, rfl, rfl, rfl⟩

theorem accessMemory (hs : s.accessMemory = .ok () t) (h : P s) : P t := by
  unfold State.accessMemory State.memoryWrite at hs
  simp only at hs
  split at hs
  · cases hs; exact K.setCmderr _ h
  · split at hs
    · cases hs; exact K.setCmderr _ h
    · rename_i w _
      split at hs
      · cases hs; exact K.setCmderr _ h
      · split at hs
        · split at hs
          · split at hs
            · cases hs; exact K.setCmderr _ h
            · refine K.finishMemory h (fun a u hu => ?_) hs
              obtain ⟨old, s', h1, h2⟩ := Res.bind_ok hu
              exact K.memoryDone w _
                (K.written (State.writeTarget_cases h2) (K.sameOrDrawn (State.readTarget_cases h1) h))
          · exact K.finishMemory h (fun _ _ hu => K.memoryDone w _ (K.written (State.writeTarget_cases hu) h)) hs
        · refine K.finishMemory h (fun a u hu => ?_) hs
          exact K.postexec (K.nextAddress w (K.setDm _ (K.narrow w a (K.sameOrDrawn (State.readTarget_cases hu) h))))

theorem runCommand (hs : s.runCommand = .ok () t) (h : P s) : P t := by
  unfold State.runCommand at hs
  split at hs
  · cases hs; exact h
  · split at hs
    · cases hs; exact K.setCmderr _ h
    · split at hs
      · cases hs; exact K.accessRegister h
      · exact K.accessMemory hs h
      · cases hs; exact K.setCmderr _ h

theorem writeDmcontrol (v : Word) (h : P s) : P (s.writeDmcontrol v) := by
  have hr : P (s.dmcontrolRequests v) := K.setDm _ h
  unfold State.writeDmcontrol
  split
  · split
    · exact K.setDm _ h
    · exact h
  · split
    · exact K.other h ⟨rfl, rfl, rfl, rfl, rfl, rfl, rfl⟩
    · simp only
      split
      · exact K.other (K.reset hr) ⟨rfl, rfl, rfl, rfl, rfl, rfl, rfl⟩
      · split
        · unfold State.releaseReset
          simp only
          split
          · exact K.debug (K.setDm _ hr)
          · exact K.other hr ⟨rfl, rfl, rfl, rfl, rfl, rfl, rfl⟩
        · split
          · exact K.other (K.pc (.inr (clearBit0_even _)) hr) ⟨rfl, rfl, rfl, rfl, rfl, rfl, rfl⟩
          · exact hr

theorem dmWrite {r : DmReg} {v : Word} (hs : s.dmWrite r v = .ok () t) (h : P s) : P t := by
  unfold State.dmWrite at hs
  split at hs
  case h_6 =>
    split at hs
    · cases hs; exact h
    · exact K.runCommand hs (K.setDm _ h)
  case h_2 => cases hs; exact K.writeDmcontrol v h
  all_goals cases hs; first | exact h | exact K.setDm _ h

theorem hostAccess {x : HostAccess} (hs : s.hostAccess x = .ok () t) (h : P s) : P t := by
  unfold State.hostAccess at hs
  split at hs
  · cases hs; exact h
  · split at hs
    · unfold State.hostRead at hs
      split at hs
      · unfold State.afterAccess at hs
        split at hs
        · cases hs; exact K.setCmderr _ (K.setDm _ h)
        · split at hs
          · exact K.runCommand hs (K.setDm _ h)
          · cases hs; exact K.setDm _ h
      · cases hs; exact K.setDm _ (K.drawn h)
    · split at hs
      · unfold State.hostWrite at hs
        split at hs
        · cases hs; exact h
        · split at hs
          · cases hs; exact K.setCmderr _ h
          · obtain ⟨_, s', h1, h2⟩ := Res.bind_ok hs
            have h' := K.dmWrite h1 h
            split at h2
            · exact K.runCommand h2 h'
            · cases h2; exact h'
      · cases hs; exact h

theorem absorb (hs : s.absorb = .ok () t) (h : P s) : P t := by
  unfold State.absorb at hs
  split at hs
  · cases hs; exact h
  · rename_i i rest _
    have hr : P (((({ s with inputs := rest } : State).applySignals i).hclkPeriods i.hclk).dmaWrite i.dma) :=
      K.dmaWrite _ (K.hclkPeriods _ (K.applySignals i (K.other (s := s) h ⟨rfl, rfl, rfl, rfl, rfl, rfl, rfl⟩)))
    simp only at hs
    split at hs
    · cases hs; exact hr
    · exact K.hostAccess hs hr

/-! ### Fetching and running -/

theorem fetchByte (a : Word) (h : P s) : P (s.fetchByte a).2 := by
  unfold State.fetchByte
  simp only
  split
  · exact h
  · exact K.drawn h

theorem fetchParcel {a : Word} {p : Byte × Byte} (hs : s.fetchParcel a = .ok p t) (h : P s) : P t := by
  unfold State.fetchParcel at hs
  split at hs
  · cases hs
  · split at hs
    · cases hs; exact K.fetchByte _ (K.fetchByte _ h)
    · cases hs
    · cases hs

theorem fetch {bytes : List Byte} (hs : s.fetch = .ok bytes t) (h : P s) : P t := by
  obtain ⟨p, s1, h1, h2⟩ := Res.bind_ok hs
  have k1 := K.fetchParcel h1 h
  split at h2
  · obtain ⟨q, s2, h3, h4⟩ := Res.bind_ok h2
    cases h4
    exact K.fetchParcel h3 k1
  · cases h2; exact k1

theorem copyBytes : ∀ (n : Nat) {s t : State} {dst src : Word}, s.copyBytes dst src n = .ok () t → P s → P t
  | 0, _, _, _, _, hs, h => by cases hs; exact h
  | n + 1, s, t, dst, src, hs, h => by
    obtain ⟨v, s1, h1, hs⟩ := Res.bind_ok hs
    obtain ⟨_, s2, h2, hs⟩ := Res.bind_ok hs
    exact copyBytes n hs (K.written (State.storeData_cases h2) (K.sameOrDrawn (State.loadData_cases h1) h))

theorem advance {len : Word} (hl : len = 2 ∨ len = 4) (h : P s) : P (s.advance len) :=
  K.pc (.inl (advance_even s hl)) h

/-- A vendor instruction that the parameter `XW_DECODE` gives a meaning keeps the property (R406). -/
theorem vendorMeaning {m : XwMeaning} {len : Word} (hl : len = 2 ∨ len = 4) (hs : s.vendorMeaning len m = .next t)
    (h : P s) : P t := by
  cases m with
  | compute rd e => cases hs; exact K.advance hl (K.writeReg rd _ h)
  | load w sgn rd a =>
    rcases State.loadInstr_cases hs with ⟨v, s', h1, rfl⟩ | hi
    · exact K.advance hl (K.writeReg rd v (K.sameOrDrawn h1 h))
    · exact K.interrupted hi h
  | store w a v =>
    rcases State.storeInstr_cases hs with hw | hi
    · exact K.written hw (K.advance hl h)
    · exact K.interrupted hi h
  | copy dst src n =>
    rcases State.run_completes hs with ⟨_, s', h1, h2⟩ | hi
    · cases h2; exact K.advance hl (K.copyBytes _ h1 h)
    · exact K.interrupted hi h

theorem runBytes (hd : ∀ bytes i n, decode bytes = .ok (i, n) → i.wf = true) {bytes : List Byte}
    (hs : s.runBytes bytes = .next t) (h : P s) : P t := by
  have vendor : ∀ w len, len = 2 ∨ len = 4 → s.vendor w len = .next t → P t := by
    intro w len hl hv
    rcases State.vendor_cases hv with ⟨-, hv⟩ | ⟨-, m, -, hv⟩
    · exact K.interrupted (State.raiseExc_interrupted hv) h
    · exact K.vendorMeaning hl hv h
  unfold State.runBytes at hs
  split at hs
  · exact K.effect (hd _ _ _ ‹_›) (exec_effect hs) h
  · exact K.interrupted (State.raiseExc_interrupted hs) h
  · exact K.interrupted (State.raiseExc_interrupted hs) h
  · exact vendor _ _ (.inl rfl) hs
  · exact vendor _ _ (.inr rfl) hs
  · cases hs

theorem instrCycle (hd : ∀ bytes i n, decode bytes = .ok (i, n) → i.wf = true) (hs : s.instrCycle = .next t)
    (h : P s) : P t := by
  unfold State.instrCycle at hs
  split at hs
  · cases hs; exact K.byTrigger h
  · exact K.interrupted (State.raiseExc_interrupted hs) h
  · rcases State.run_completes hs with ⟨b, s', h1, h2⟩ | hi
    · exact K.runBytes hd h2 (K.fetch h1 h)
    · exact K.interrupted hi h

theorem wake (h : P s) : P s.wake := by
  unfold State.wake
  split
  · exact h
  · split
    · exact K.other h ⟨rfl, rfl, rfl, rfl, rfl, rfl, rfl⟩
    · split
      · exact K.other h ⟨rfl, rfl, rfl, rfl, rfl, rfl, rfl⟩
      · split
        · split
          · exact K.other h ⟨rfl, rfl, rfl, rfl, rfl, rfl, rfl⟩
          · exact K.drawn h
        · exact h

theorem endStep (h : P s) : P s.endStep := by
  rcases State.endStep_cases s with ⟨-, e⟩ | ⟨-, -, -, e⟩ | ⟨-, -, -, e⟩ <;> rw [e]
  · exact h
  · exact K.byTrigger h
  · exact K.debug h

theorem halt (h : P s) : P s.halt := by
  rcases State.halt_cases s with ⟨-, e⟩ | ⟨-, -, e⟩ | ⟨-, -, bytes, s', hf, -, e⟩ <;> rw [e]
  · exact K.byTrigger h
  · exact K.debug h
  · exact K.debug (K.fetch hf h)

/-- A whole step keeps the property, where the decoder gives well-formed instructions only. -/
theorem step_keeps (hd : ∀ bytes i n, decode bytes = .ok (i, n) → i.wf = true) (hs : step s = .next t) (h : P s) :
    P t := by
  unfold step State.cycle at hs
  rcases State.run_completes hs with ⟨_, s1, h1, h2⟩ | hi
  · have k1 := K.absorb h1 h
    split at h2
    · unfold State.runningCycle at h2
      split at h2
      · cases h2
        exact K.halt k1
      · split at h2
        · unfold mapNext at h2
          split at h2
          · rename_i u hu
            cases h2
            refine K.endStep ?_
            unfold State.boundary at hu
            split at hu
            · rename_i n hn
              refine K.takeInterrupt (State.acceptedInterrupt_legal ?_) hu (K.wake k1)
              unfold State.sampledInterrupt at hn
              split at hn
              · cases hn
              · exact hn
            · exact K.instrCycle hd hu (K.wake k1)
          · cases h2
          · cases h2
        · cases h2; exact K.wake k1
    · unfold State.progbufCycle at h2
      split at h2
      · cases h2
      · exact K.runBytes hd h2 k1
    · cases h2; exact k1
    · cases h2; exact k1
  · exact K.interrupted hi h

end Kept

end Sys2Proof.Machine
end

