-- ==== Sys2Proof/Tests/Slice0.lean ====
section
/-! SUPPORT. Tests, each a named theorem. The expected values come from spec/95_test_vectors.md (the vector is named
with each), never from the model: ill-formed terms that WellFormed refuses, the words of V1 and V2 decoded, single
steps of V10 to V65, and for every statement with hypotheses a concrete state that meets them. -/

open Sys2Proof Sys2Proof.Machine

namespace Sys2Proof.Tests

-- One theorem after another: evaluated side by side, these need more memory than the check allows.
set_option Elab.async false

/-! ## WellFormed: one ill-formed term for each check -/

/-- Odd offsets (R173, R326, R338). -/
theorem test_wf_refuses_odd_offsets : ∀ i ∈ [Instr.jal 1 3, .beq 1 2 5, .bne 1 2 5, .blt 1 2 5, .bge 1 2 5,
    .bltu 1 2 5, .bgeu 1 2 5, .cJal 3, .cJ 3, .cBeqz 0 3, .cBnez 0 3], i.wf = false := by decide

/-- Immediates that are not scaled as the encoding is (R321, R322, R323, R328, R341, R347). -/
theorem test_wf_refuses_unscaled_immediates : ∀ i ∈ [Instr.cAddi4spn 0 2, .cLw 0 0 2, .cSw 0 0 1, .cAddi16sp 8,
    .cLwsp 1 2, .cSwsp 1 1], i.wf = false := by decide

/-- Zero immediates and register numbers that a reserved encoding or another row takes (R193, R325, R329, R348). -/
theorem test_wf_refuses_reserved_operands : ∀ i ∈ [Instr.cAddi4spn 0 0, .cAddi 0 1, .cAddi16sp 0, .cLui 2 1,
    .cLui 5 0, .cLwsp 0 4, .cJr 0, .cMv 1 0, .cJalr 0, .cAdd 1 0], i.wf = false := by decide

/-! ## Decoding: the words the spec writes out (V1, V2) -/

theorem test_decode_words_1 : ∀ p ∈ ([
    (0xFEDCB537, (.lui 10 0xfedcb)), (0xFEDCB517, (.auipc 10 0xfedcb)), (0x800000EF, (.jal 1 0x100000)),
    (0x010580E7, (.jalr 1 11 16)), (0x80C58063, (.beq 11 12 0x1000)), (0x80C59063, (.bne 11 12 0x1000)),
    (0x80C5C063, (.blt 11 12 0x1000)), (0x80C5D063, (.bge 11 12 0x1000)), (0x80C5E063, (.bltu 11 12 0x1000)),
    (0x80C5F063, (.bgeu 11 12 0x1000)), (0xFFC58503, (.lb 10 11 0xffc)), (0xFFC59503, (.lh 10 11 0xffc)),
    (0xFFC5A503, (.lw 10 11 0xffc)), (0xFFC5C503, (.lbu 10 11 0xffc)), (0xFFC5D503, (.lhu 10 11 0xffc)),
    (0x7EC58FA3, (.sb 12 11 0x7ff)), (0x7EC59FA3, (.sh 12 11 0x7ff)), (0x7EC5AFA3, (.sw 12 11 0x7ff)),
    (0xFFD58513, (.addi 10 11 0xffd)), (0xFFD5A513, (.slti 10 11 0xffd)), (0xFFD5B513, (.sltiu 10 11 0xffd)),
    (0xFFD5C513, (.xori 10 11 0xffd)), (0xFFD5E513, (.ori 10 11 0xffd)), (0xFFD5F513, (.andi 10 11 0xffd))] :
    List (Nat × Instr)), decodeTableWord 32 p.1 = some p.2 := by decide +kernel

theorem test_decode_words_2 : ∀ p ∈ ([
    (0x01F59513, (.slli 10 11 31)), (0x01F5D513, (.srli 10 11 31)), (0x41F5D513, (.srai 10 11 31)),
    (0x00C58533, (.add 10 11 12)), (0x00C59533, (.sll 10 11 12)), (0x00C5A533, (.slt 10 11 12)),
    (0x00C5B533, (.sltu 10 11 12)), (0x00C5C533, (.xor 10 11 12)), (0x00C5D533, (.srl 10 11 12)),
    (0x00C5E533, (.or 10 11 12)), (0x00C5F533, (.and 10 11 12)), (0x40C58533, (.sub 10 11 12)),
    (0x40C5D533, (.sra 10 11 12)), (0x0330000F, (.fence 0 3 3 0 0)), (0x0000100F, (.fenceI 0 0 0)),
    (0x00000073, .ecall), (0x00100073, .ebreak), (0x30200073, .mret), (0x10500073, .wfi),
    (0x34059573, (.csrrw 10 0x340 11)), (0x3405A573, (.csrrs 10 0x340 11)), (0x3405B573, (.csrrc 10 0x340 11)),
    (0x340AD573, (.csrrwi 10 0x340 21)), (0x340AE573, (.csrrsi 10 0x340 21))] :
    List (Nat × Instr)), decodeTableWord 32 p.1 = some p.2 := by decide +kernel

theorem test_decode_words_3 : ∀ p ∈ ([
    (0x340AF573, (.csrrci 10 0x340 21)), (0x02C58533, (.mul 10 11 12)), (0x02C59533, (.mulh 10 11 12)),
    (0x02C5A533, (.mulhsu 10 11 12)), (0x02C5B533, (.mulhu 10 11 12)), (0x02C5C533, (.div 10 11 12)),
    (0x02C5D533, (.divu 10 11 12)), (0x02C5E533, (.rem 10 11 12)), (0x02C5F533, (.remu 10 11 12)),
    (0x1405A52F, (.lrW true false 10 11)), (0x1EC5A52F, (.scW true true 10 12 11)),
    (0x0EC5A52F, (.amoswapW true true 10 12 11)), (0x06C5A52F, (.amoaddW true true 10 12 11)),
    (0x26C5A52F, (.amoxorW true true 10 12 11)), (0x66C5A52F, (.amoandW true true 10 12 11)),
    (0x46C5A52F, (.amoorW true true 10 12 11)), (0x86C5A52F, (.amominW true true 10 12 11)),
    (0xA6C5A52F, (.amomaxW true true 10 12 11)), (0xC6C5A52F, (.amominuW true true 10 12 11)),
    (0xE6C5A52F, (.amomaxuW true true 10 12 11)), (0x20C5A533, (.sh1add 10 11 12)),
    (0x20C5C533, (.sh2add 10 11 12)), (0x20C5E533, (.sh3add 10 11 12)), (0x40C5F533, (.andn 10 11 12))] :
    List (Nat × Instr)), decodeTableWord 32 p.1 = some p.2 := by decide +kernel

theorem test_decode_words_4 : ∀ p ∈ ([
    (0x40C5E533, (.orn 10 11 12)), (0x40C5C533, (.xnor 10 11 12)), (0x60059513, (.clz 10 11)),
    (0x60159513, (.ctz 10 11)), (0x60259513, (.cpop 10 11)), (0x60459513, (.sextB 10 11)),
    (0x60559513, (.sextH 10 11)), (0x0AC5E533, (.max 10 11 12)), (0x0AC5F533, (.maxu 10 11 12)),
    (0x0AC5C533, (.min 10 11 12)), (0x0AC5D533, (.minu 10 11 12)), (0x0805C533, (.zextH 10 11)),
    (0x60C59533, (.rol 10 11 12)), (0x60C5D533, (.ror 10 11 12)), (0x61F5D513, (.rori 10 11 31)),
    (0x2875D513, (.orcB 10 11)), (0x6985D513, (.rev8 10 11)), (0x0AC59533, (.clmul 10 11 12)),
    (0x0AC5A533, (.clmulr 10 11 12)), (0x0AC5B533, (.clmulh 10 11 12)), (0x48C59533, (.bclr 10 11 12)),
    (0x49F59513, (.bclri 10 11 31)), (0x48C5D533, (.bext 10 11 12)), (0x49F5D513, (.bexti 10 11 31))] :
    List (Nat × Instr)), decodeTableWord 32 p.1 = some p.2 := by decide +kernel

theorem test_decode_words_5 : ∀ p ∈ ([
    (0x68C59533, (.binv 10 11 12)), (0x69F59513, (.binvi 10 11 31)), (0x28C59533, (.bset 10 11 12)),
    (0x29F59513, (.bseti 10 11 31))] :
    List (Nat × Instr)), decodeTableWord 32 p.1 = some p.2 := by decide +kernel

theorem test_decode_parcels_1 : ∀ p ∈ ([
    (0x0040, (.cAddi4spn 0 4)), (0x1FFC, (.cAddi4spn 7 0x3fc)), (0x4104, (.cLw 1 2 0)),
    (0x5C7C, (.cLw 7 0 0x7c)), (0xC144, (.cSw 1 2 4)), (0xC03C, (.cSw 7 0 0x40)), (0x0001, (.cNop 0)),
    (0x12FD, (.cAddi 5 63)), (0x0FFD, (.cAddi 31 31)), (0x2FFD, (.cJal 0x7fe)), (0x3001, (.cJal 0x800)),
    (0x5501, (.cLi 10 32)), (0x40FD, (.cLi 1 31)), (0x7101, (.cAddi16sp 0x200)), (0x617D, (.cAddi16sp 0x1f0)),
    (0x6285, (.cLui 5 1)), (0x7501, (.cLui 10 32)), (0x70FD, (.cLui 1 63)), (0x8005, (.cSrli 0 1)),
    (0x83FD, (.cSrli 7 31)), (0x8491, (.cSrai 1 4)), (0x987D, (.cAndi 0 63)), (0x8BBD, (.cAndi 7 15)),
    (0x8C05, (.cSub 0 1))] :
    List (Nat × Instr)), decodeTableWord 16 p.1 = some p.2 := by decide +kernel

theorem test_decode_parcels_2 : ∀ p ∈ ([
    (0x8D2D, (.cXor 2 3)), (0x8E55, (.cOr 4 5)), (0x8F7D, (.cAnd 6 7)), (0xBFFD, (.cJ 0xffe)),
    (0xAFFD, (.cJ 0x7fe)), (0xD001, (.cBeqz 0 0x100)), (0xCCFD, (.cBeqz 1 0xfe)), (0xE399, (.cBnez 7 6)),
    (0x0286, (.cSlli 5 1)), (0x0FFE, (.cSlli 31 31)), (0x4082, (.cLwsp 1 0)), (0x5FFE, (.cLwsp 31 0xfc)),
    (0x8082, (.cJr 1)), (0x8F82, (.cJr 31)), (0x852E, (.cMv 10 11)), (0x80FE, (.cMv 1 31)), (0x9002, .cEbreak),
    (0x9282, (.cJalr 5)), (0x952E, (.cAdd 10 11)), (0x910A, (.cAdd 2 2)), (0xC006, (.cSwsp 1 0)),
    (0xDFFE, (.cSwsp 31 0xfc))] :
    List (Nat × Instr)), decodeTableWord 16 p.1 = some p.2 := by decide +kernel
/-- Why the decoder rejects some bytes. -/
def rejection {α : Type} (r : Except DecodeReject α) : Option (String × Nat) :=
  match r with
  | .ok _ => none
  | .error (.illegalWord w) => some ("illegal word", w.toNat)
  | .error (.illegalHalf p) => some ("illegal parcel", p.toNat)
  | .error (.vendorWord w) => some ("vendor word", w.toNat)
  | .error (.vendorHalf p) => some ("vendor parcel", p.toNat)
  | .error .truncated => some ("truncated", 0)

/-- The reserved words of V1 are illegal (R190, R194). -/
theorem test_reserved_words_rejected :
    ∀ w ∈ ([0x10200073, 0x00200073, 0x7B200073, 0x1005B52F, 0x1015A52F, 0x02051513, 0x40051513, 0xFFFFFFFF] : List Nat),
      rejection (decodeWord (BitVec.ofNat 32 w)) = some ("illegal word", w) := by decide +kernel

/-- The reserved parcels of V2 are illegal (R193). -/
theorem test_reserved_parcels_rejected :
    ∀ p ∈ ([0x0000, 0x0004, 0x6281, 0x6101, 0x9005, 0x9C01, 0x9C21, 0x9C41, 0x9C61, 0x1286, 0x4012, 0x8002] : List Nat),
      rejection (decodeHalf (BitVec.ofNat 16 p)) = some ("illegal parcel", p) := by decide +kernel

/-- The slots of V2 and R191 that may hold XW or custom instructions are told apart from illegal encodings. -/
theorem test_vendor_slots_rejected :
    (∀ p ∈ ([0x2000, 0x6000, 0x8000, 0xA000, 0xE000, 0x2002, 0x6002, 0xA002, 0xE002] : List Nat),
      rejection (decodeHalf (BitVec.ofNat 16 p)) = some ("vendor parcel", p)) ∧
    (∀ w ∈ ([0x0000000B, 0x0000002B, 0x0000005B, 0x0000007B] : List Nat),
      rejection (decodeWord (BitVec.ofNat 32 w)) = some ("vendor word", w)) := by
  decide +kernel

/-- The hint parcels of V2 decode to their rows (R192). -/
theorem test_hints_decode :
    ∀ p ∈ ([(0x0001, .cNop 0), (0x0005, .cNop 1), (0x0281, .cAddi 5 0), (0x4001, .cLi 0 0), (0x6005, .cLui 0 1),
      (0x800A, .cMv 0 2), (0x900A, .cAdd 0 2), (0x0006, .cSlli 0 1), (0x0002, .cSlli 0 0), (0x8001, .cSrli 0 0),
      (0x8401, .cSrai 0 0)] : List (Nat × Instr)), decodeTableWord 16 p.1 = some p.2 := by decide +kernel

/-! ## Single steps -/

/-- A machine of a model after reset with the pc, some registers and some memory words set (log entry 2). -/
def start (m : Model) (pc : Word) (regs : List (Reg × Word)) (words : List (Word × Word)) : State :=
  let s := { State.resetWith { Config.standard with model := m } with pc := pc }
  let r := regs.foldl (fun t p => t.writeReg p.1 p.2) s
  { r with mem := words.foldl (fun w p => Memory.store w .word p.1 p.2) r.mem }

/-- One step with a word, or a parcel, placed at the pc. -/
def stepWord (w : Nat) (s : State) : Machine.Outcome :=
  step (s.withFetchWord (if w % 4 = 3 then 32 else 16) w)

/-- What a test looks at in the next state. -/
def see {α : Type} (f : State → α) (o : Machine.Outcome) : Option α :=
  match o with
  | .next t => some (f t)
  | _ => none

/-- x10 after one step of a word on two operands in x11 and x12, all at pc 0x1000. -/
def result (m : Model) (a b : Word) (w : Nat) : Option Word :=
  see (·.readReg 10) (stepWord w (start m 0x1000 [(11, a), (12, b)] []))

/-- The trap CSRs, the mode and the pc. -/
def trapView (t : State) : List Word × Priv :=
  ([t.csr.mepc, t.csr.mcause, t.csr.mtval, t.csr.mstatus, t.pc], t.priv)

/-- V20 line 5. -/
theorem test_v20_most_negative : ∀ p ∈ ([(0x00C58533, 0x7FFFFFFF), (0x40C58533, 0x80000001), (0x00C5A533, 1),
    (0x00C5B533, 1), (0x00C5C533, 0x7FFFFFFF), (0x00C5E533, 0xFFFFFFFF), (0x00C5F533, 0x80000000), (0x00C59533, 0),
    (0x00C5D533, 1), (0x40C5D533, 0xFFFFFFFF)] : List (Nat × Word)),
    result .v3a 0x80000000 0xFFFFFFFF p.1 = some p.2 := by decide +kernel

/-- V20 line 10: the shift amount is the low 5 bits of 0x24. -/
theorem test_v20_shift_amount : ∀ p ∈ ([(0x00C58533, 0xDEADBF13), (0x40C58533, 0xDEADBECB), (0x00C5A533, 1),
    (0x00C5B533, 0), (0x00C5C533, 0xDEADBECB), (0x00C5E533, 0xDEADBEEF), (0x00C5F533, 0x24),
    (0x00C59533, 0xEADBEEF0), (0x00C5D533, 0x0DEADBEE), (0x40C5D533, 0xFDEADBEE)] : List (Nat × Word)),
    result .v3b 0xDEADBEEF 0x24 p.1 = some p.2 := by decide +kernel

/-- V21 line 8 with the immediate -3, V22 line 4 with the amount 31, V10 line 10. -/
theorem test_v21_immediates :
    (∀ p ∈ ([(0xFFD58513, 2), (0xFFD5A513, 0), (0xFFD5B513, 1), (0xFFD5C513, 0xFFFFFFF8), (0xFFD5E513, 0xFFFFFFFD),
      (0xFFD5F513, 5)] : List (Nat × Word)), result .v3c 5 0 p.1 = some p.2) ∧
    (∀ p ∈ ([(0x01F59513, 0x80000000), (0x01F5D513, 1), (0x41F5D513, 0xFFFFFFFF)] : List (Nat × Word)),
      result .v3c 0x80000001 0 p.1 = some p.2) ∧
    result .v3c 0 0 0x80000537 = some 0x80000000 := by decide +kernel

/-- V23 line 5. -/
theorem test_v23_products : ∀ p ∈ ([(0x02C58533, 0x80000000), (0x02C59533, 0), (0x02C5A533, 0x80000000),
    (0x02C5B533, 0x7FFFFFFF)] : List (Nat × Word)), result .v3c 0x80000000 0xFFFFFFFF p.1 = some p.2 := by
  decide +kernel

/-- V24 lines 2, 7 and 9: signs, a zero divisor, the overflow. -/
theorem test_v24_divisions :
    (∀ p ∈ ([(0x02C5C533, 0xFFFFFFFD), (0x02C5D533, 0x2AAAAAA7), (0x02C5E533, 0xFFFFFFFE), (0x02C5F533, 2)] :
      List (Nat × Word)), result .v3c 0xFFFFFFEC 6 p.1 = some p.2) ∧
    (∀ p ∈ ([(0x02C5C533, 0xFFFFFFFF), (0x02C5D533, 0xFFFFFFFF), (0x02C5E533, 0xFFFFFFFF), (0x02C5F533, 0xFFFFFFFF)] :
      List (Nat × Word)), result .v3c 0xFFFFFFFF 0 p.1 = some p.2) ∧
    (∀ p ∈ ([(0x02C5C533, 0x80000000), (0x02C5D533, 0), (0x02C5E533, 0), (0x02C5F533, 0x80000000)] :
      List (Nat × Word)), result .v3c 0x80000000 0xFFFFFFFF p.1 = some p.2) := by decide +kernel

/-- V25 line 3. -/
theorem test_v25_zba_zbb : ∀ p ∈ ([(0x20C5A533, 0xBF258BE0), (0x20C5C533, 0xE38E38D0), (0x20C5E533, 0x2C5F92B0),
    (0x40C5F533, 0x00000008), (0x40C5E533, 0x7777777F), (0x40C5C533, 0x77777777), (0x0AC5E533, 0x12345678),
    (0x0AC5F533, 0x9ABCDEF0), (0x0AC5C533, 0x9ABCDEF0), (0x0AC5D533, 0x12345678), (0x60C59533, 0x56781234),
    (0x60C5D533, 0x56781234)] : List (Nat × Word)), result .v3c 0x12345678 0x9ABCDEF0 p.1 = some p.2 := by
  decide +kernel

/-- V26 line 4. -/
theorem test_v26_zbc_zbs : ∀ p ∈ ([(0x0AC59533, 0x80000000), (0x0AC5B533, 0x0000000F), (0x0AC5A533, 0x0000001F),
    (0x48C59533, 0), (0x48C5D533, 1), (0x68C59533, 0), (0x28C59533, 0x80000000)] : List (Nat × Word)),
    result .v3b 0x80000000 0x1F p.1 = some p.2 := by decide +kernel

/-- V27 lines 1 and 7. -/
theorem test_v27_unary :
    (∀ p ∈ ([(0x60059513, 32), (0x60159513, 32), (0x60259513, 0), (0x2875D513, 0), (0x6985D513, 0)] :
      List (Nat × Word)), result .v3c 0 0 p.1 = some p.2) ∧
    (∀ p ∈ ([(0x60059513, 16), (0x60159513, 0), (0x60259513, 8), (0x60459513, 0x7F), (0x60559513, 0xFFFF807F),
      (0x0805C533, 0x807F), (0x2875D513, 0xFFFF), (0x6985D513, 0x7F800000)] : List (Nat × Word)),
      result .v3c 0x807F 0 p.1 = some p.2) := by decide +kernel

/-- V28 line 3, the amount 31. -/
theorem test_v28_immediates : ∀ p ∈ ([(0x61F5D513, 3), (0x49F59513, 1), (0x49F5D513, 1), (0x69F59513, 1),
    (0x29F59513, 0x80000001)] : List (Nat × Word)), result .v3c 0x80000001 0 p.1 = some p.2 := by decide +kernel

/-- V10 lines 1, 3, 4: jal backwards, and past either end of the address space. -/
theorem test_v10_jal :
    see (fun t => (t.readReg 1, t.pc)) (stepWord 0xFF9FF0EF (start .v3c 0x1000 [] [])) = some (0x1004, 0xFF8) ∧
    see (fun t => (t.readReg 1, t.pc)) (stepWord 0x800000EF (start .v3c 0x80000 [] [])) =
      some (0x80004, 0xFFF80000) ∧
    see (fun t => (t.readReg 5, t.pc)) (stepWord 0x010002EF (start .v3c 0xFFFFFFF8 [] [])) =
      some (0xFFFFFFFC, 8) := by decide +kernel

/-- V10 lines 5, 6, 9: jalr clears bit 0 and reads its base before it writes rd; auipc. -/
theorem test_v10_jalr_auipc :
    see (fun t => (t.readReg 1, t.pc)) (stepWord 0x010580E7 (start .v3c 0x1000 [(11, 0x2001)] [])) =
      some (0x1004, 0x2010) ∧
    see (fun t => (t.readReg 11, t.pc)) (stepWord 0xFFC585E7 (start .v3c 0x1000 [(11, 0x2000)] [])) =
      some (0x1004, 0x1FFC) ∧
    see (·.readReg 10) (stepWord 0x00000517 (start .v3c 0x1234 [] [])) = some 0x1234 := by decide +kernel

/-- V10 line 11: a write of x0 changes no register. -/
theorem test_v10_x0_stays_zero :
    see (fun t => (t.regs, t.readReg 0)) (stepWord 0xFEDCB037 (start .v3c 0x1000 [] [])) =
      some (Vector.replicate 32 0, 0) := by decide +kernel

/-- V11 lines 3 and 4, in the order beq, bne, blt, bge, bltu, bgeu: signed and unsigned order differ. -/
theorem test_v11_branches :
    [0xFEC588E3, 0xFEC598E3, 0xFEC5C8E3, 0xFEC5D8E3, 0xFEC5E8E3, 0xFEC5F8E3].map
      (fun w => see (·.pc) (stepWord w (start .v3c 0x1000 [(11, 0xFFFFFFFF), (12, 1)] []))) =
      [some 0x1004, some 0xFF0, some 0xFF0, some 0x1004, some 0x1004, some 0xFF0] ∧
    [0xFEC588E3, 0xFEC598E3, 0xFEC5C8E3, 0xFEC5D8E3, 0xFEC5E8E3, 0xFEC5F8E3].map
      (fun w => see (·.pc) (stepWord w (start .v3c 0x1000 [(11, 1), (12, 0xFFFFFFFF)] []))) =
      [some 0x1004, some 0xFF0, some 0x1004, some 0xFF0, some 0xFF0, some 0x1004] := by decide +kernel

/-- The memory of V12, and x11 its address. -/
def loadStart : State := start .v3c 0x1000 [(10, 0xAAAAAAAA), (11, 0x2000)] [(0x2000, 0x92345678), (0x2004, 0x80FF7F01)]

/-- V12 lines 2, 3, 5, 6, 8, 16. -/
theorem test_v12_loads : ∀ p ∈ ([(0x00358503, 0xFFFFFF92), (0x0035C503, 0x92), (0x00259503, 0xFFFF9234),
    (0x0025D503, 0x9234), (0x0045A503, 0x80FF7F01), (0x0005A003, 0xAAAAAAAA)] : List (Nat × Word)),
    see (·.readReg 10) (stepWord p.1 loadStart) = some p.2 := by decide +kernel

/-- V12 lines 12 to 15: misaligned loads trap with their address and write nothing. -/
theorem test_v12_misaligned : ∀ p ∈ ([(0x00159503, 0x2001), (0x0025A503, 0x2002), (0x0035D503, 0x2003),
    (0xFFF5A503, 0x1FFF)] : List (Nat × Word)),
    see (fun t => (t.csr.mcause, t.csr.mtval, t.csr.mepc, t.readReg 10)) (stepWord p.1 loadStart) =
      some (4, p.2, 0x1000, 0xAAAAAAAA) := by decide +kernel

/-- V13 lines 1 to 8. -/
theorem test_v13_stores : ∀ p ∈ ([(0x00C58023, 0x111111D4, 0), (0x00C581A3, 0xD4111111, 0), (0x00C59023, 0x1111C3D4, 0),
    (0x00C59123, 0xC3D41111, 0), (0x00C5A023, 0xA1B2C3D4, 0), (0x00C590A3, 0x11111111, 0x2001),
    (0x00C5A123, 0x11111111, 0x2002), (0x00C5A1A3, 0x11111111, 0x2003)] : List (Nat × Word × Word)),
    see (fun t => (Memory.load t.mem .word 0x2000, t.csr.mtval))
      (stepWord p.1 (start .v3c 0x1000 [(11, 0x2000), (12, 0xA1B2C3D4)] [(0x2000, 0x11111111)])) = some p.2 := by
  decide +kernel

/-- The step of V14: x10 and the word at 0x2000. -/
def amo (mem v : Word) (w : Nat) : Option (Word × Word) :=
  see (fun t => (t.readReg 10, Memory.load t.mem .word 0x2000))
    (stepWord w (start .v3a 0x1000 [(11, 0x2000), (12, v)] [(0x2000, mem)]))

/-- V14, the first column. -/
theorem test_v14_amos_small : ∀ p ∈ ([(0x08C5A52F, 0xFFFFFFFD), (0x00C5A52F, 2), (0x20C5A52F, 0xFFFFFFF8),
    (0x60C5A52F, 5), (0x40C5A52F, 0xFFFFFFFD), (0x80C5A52F, 0xFFFFFFFD), (0xA0C5A52F, 5), (0xC0C5A52F, 5),
    (0xE0C5A52F, 0xFFFFFFFD)] : List (Nat × Word)), amo 5 0xFFFFFFFD p.1 = some (5, p.2) := by decide +kernel

/-- V14, the second column. -/
theorem test_v14_amos_extremes : ∀ p ∈ ([(0x08C5A52F, 0x7FFFFFFF), (0x00C5A52F, 0xFFFFFFFF), (0x20C5A52F, 0xFFFFFFFF),
    (0x60C5A52F, 0), (0x40C5A52F, 0xFFFFFFFF), (0x80C5A52F, 0x80000000), (0xA0C5A52F, 0x7FFFFFFF),
    (0xC0C5A52F, 0x7FFFFFFF), (0xE0C5A52F, 0x80000000)] : List (Nat × Word)),
    amo 0x80000000 0x7FFFFFFF p.1 = some (0x80000000, p.2) := by decide +kernel

/-- V14, the first half of corner case 3 and corner cases 4 and 6. -/
theorem test_v14_reservations :
    see (fun t => (t.readReg 10, t.resv)) (stepWord 0x1005A52F (start .v3a 0x1000 [(11, 0x2000)] [(0x2000, 7)])) =
      some (7, some ⟨0x2000, true⟩) ∧
    see (fun t => (t.readReg 13, Memory.load t.mem .word 0x2000))
      (stepWord 0x18C5A6AF (start .v3a 0x1000 [(11, 0x2000), (12, 9)] [(0x2000, 7)])) = some (1, 7) ∧
    see (fun t => (t.csr.mcause, t.csr.mtval)) (stepWord 0x1005A52F (start .v3b 0x1000 [(11, 0x2000)] [])) =
      some (2, 0x1005A52F) := by decide +kernel

/-- V14, the second half of corner case 3. -/
theorem test_v14_sc_success :
    see (fun t => (t.readReg 13, Memory.load t.mem .word 0x2000, t.resv))
      (stepWord 0x18C5A6AF { start .v3a 0x1000 [(11, 0x2000), (12, 9)] [(0x2000, 7)] with resv := some ⟨0x2000, true⟩ }) =
      some (0, 9, none) := by decide +kernel

/-- A state in which registers hold distinct addresses of memory. -/
def compactStart : State :=
  start .v3c 0x1000 [(1, 0x2010), (2, 0x2020), (5, 0x2050), (8, 0x2080), (9, 0x2090), (10, 0x20A0), (11, 0x20B0),
    (12, 0x20C1), (13, 0xFFFFF0D2), (14, 0x20E0), (15, 0x20F0), (31, 0x8000FF01)] [(0x20A0, 0x1234), (0x20FC, 0x5678),
    (0x2020, 0x9ABC), (0x211C, 0xDEF0)]

/-- The registers, a few words of memory and how far the pc has come. -/
def compactView (len : Word) (t : State) : Vector Word 32 × List Word × Word :=
  (t.regs, [0x20A4, 0x20C0, 0x2020, 0x211C].map (Memory.load t.mem .word), t.pc - len)

/-- V2: a parcel does what the word it expands to does, and the pc advances by 2 (lines 1 to 46 but for jumps). -/
theorem test_v2_expansions : ∀ p ∈ ([(0x0040, 0x00410413), (0x1FFC, 0x3FC10793), (0x4104, 0x00052483), (0x5C7C, 0x07C42783),
    (0xC144, 0x00952223), (0xC03C, 0x04F42023), (0x0001, 0x00000013), (0x12FD, 0xFFF28293), (0x5501, 0xFE000513),
    (0x7101, 0xE0010113), (0x617D, 0x1F010113), (0x6285, 0x000012B7), (0x7501, 0xFFFE0537), (0x8005, 0x00145413),
    (0x83FD, 0x01F7D793), (0x8491, 0x4044D493), (0x8BBD, 0x00F7F793), (0x8C05, 0x40940433), (0x8D2D, 0x00B54533),
    (0x8E55, 0x00D66633), (0x8F7D, 0x00F77733), (0x0286, 0x00129293), (0x4082, 0x00012083), (0x5FFE, 0x0FC12F83),
    (0x852E, 0x00B00533), (0x952E, 0x00B50533), (0xC006, 0x00112023), (0xDFFE, 0x0FF12E23)] : List (Nat × Nat)),
    see (compactView 2) (stepWord p.1 compactStart) = see (compactView 4) (stepWord p.2 compactStart) := by
  decide +kernel

/-- The effects of some of those parcels by V2's assembly and the operands above: the table itself is not empty. -/
theorem test_v2_effects : ∀ p ∈ ([(0x0040, 8, 0x2024), (0x4104, 9, 0x1234), (0x5C7C, 15, 0x5678), (0x12FD, 5, 0x204F),
    (0x5501, 10, 0xFFFFFFE0), (0x7101, 2, 0x1E20), (0x7501, 10, 0xFFFE0000), (0x8491, 9, 0x209), (0x8C05, 8, 0xFFFFFFF0),
    (0x8E55, 12, 0xFFFFF0D3), (0x5FFE, 31, 0xDEF0), (0x852E, 10, 0x20B0), (0x952E, 10, 0x4150)] :
    List (Nat × Reg × Word)), see (·.readReg p.2.1) (stepWord p.1 compactStart) = some p.2.2 := by decide +kernel

/-- V2 lines 10, 11, 28, 30, 32, 37, 42: compressed jumps link pc + 2; branches are taken or pass by. -/
theorem test_v2_jumps : ∀ p ∈ ([(0x2FFD, 0x1002, 0x17FE), (0x3001, 0x1002, 0x800), (0xBFFD, 0x2010, 0xFFE),
    (0xD001, 0x2010, 0x1002), (0xE399, 0x2010, 0x1006), (0x8082, 0x2010, 0x2010), (0x9282, 0x1002, 0x2050)] :
    List (Nat × Word × Word)), see (fun t => (t.readReg 1, t.pc)) (stepWord p.1 compactStart) = some p.2 := by
  decide +kernel

/-- V30 lines 1, 9, 12, 14, 20, 26. -/
theorem test_v30_csrs :
    see (fun t => (t.readReg 5, t.csr.mscratch))
      (stepWord 0x340312F3 { start .v3b 0x1000 [(6, 0x22222222)] [] with
        csr := { Csrs.reset with mscratch := 0x11111111 } }) = some (0x11111111, 0x22222222) ∧
    see (fun t => (t.csr.mcause, t.csr.mtval)) (stepWord 0xF1232073 (start .v3b 0x1000 [] [])) =
      some (2, 0xF1232073) ∧
    see (fun t => (t.readReg 5, t.csr.mstatus))
      (stepWord 0x300332F3 { start .v3b 0x1000 [(6, 8)] [] with csr := { Csrs.reset with mstatus := 0x1888 } }) =
      some (0x1888, 0x1880) ∧
    see (fun t => (t.readReg 5, t.csr.mstatus))
      (stepWord 0x300472F3 { start .v3b 0x1000 [] [] with csr := { Csrs.reset with mstatus := 0x88 } }) =
      some (0x88, 0x80) ∧
    see (fun t => (t.csr.mcause, t.csr.mtval, mstatusMpp t.csr.mstatus))
      (stepWord 0x300022F3 { start .v3b 0x1000 [] [] with priv := .user }) = some (2, 0x300022F3, .user) ∧
    see (·.csr.intsyscr) (stepWord 0x8040E073 (start .v3b 0x1000 [] [])) = some 0xE003 := by decide +kernel

/-- V30 lines 3, 4, 13, 30. -/
theorem test_v30_fields :
    see (·.csr.mstatus) (stepWord 0x30029073 (start .v3c 0x1000 [(5, 0xFFFFFFFF)] [])) = some 0x1888 ∧
    see (·.csr.mtvec) (stepWord 0x30529073 (start .v3c 0x1000 [(5, 0xFFFFFFFF)] [])) = some 0xFFFFFC03 ∧
    see (·.csr.mtvec) (stepWord 0x30529073 (start .v3a 0x1000 [(5, 0xFFFFFFFF)] [])) = some 0xFFFFFC01 ∧
    see (·.csr.mscratch) (stepWord 0x340FD2F3 (start .v3c 0x1000 [] [])) = some 31 ∧
    see (·.csr.mepc) (stepWord 0x34129073 (start .v3c 0x1000 [(5, 0x203)] [])) = some 0x202 := by decide +kernel

/-- V31 line 1, with the base 0x400 (R42 fixes bits 9 to 2 of mtvec at 0). -/
theorem test_v31_ecall :
    see trapView (stepWord 0x00000073 { start .v3b 0x200 [] [] with
      priv := .user
      csr := { Csrs.reset with mstatus := 0x88, mtvec := 0x400 } }) = some ([0x200, 8, 0, 0x80, 0x400], .machine) := by
  decide +kernel

/-- V31 lines 2 and 3: ebreak, and c.ebreak through the vector table of V3B and of V3A. -/
theorem test_v31_breakpoints :
    see trapView (stepWord 0x00100073 { start .v3b 0x204 [] [] with
      csr := { Csrs.reset with mstatus := 8, mtvec := 0x400 } }) = some ([0x204, 3, 0, 0x1880, 0x400], .machine) ∧
    see (·.pc) (stepWord 0x9002 { start .v3b 0x208 [] [] with csr := { Csrs.reset with mtvec := 0x401 } }) =
      some 0x424 ∧
    see (·.pc) (stepWord 0x9002 { start .v3a 0x208 [] [] with csr := { Csrs.reset with mtvec := 0x401 } }) =
      some 0x40C := by decide +kernel

/-- V31 lines 4 and 6: mret to user mode, and mret in user mode. The fields D12 leaves open are not looked at. -/
theorem test_v31_mret :
    see (fun t => (t.pc, t.priv))
      (stepWord 0x30200073 { start .v3c 0x1000 [] [] with csr := { Csrs.reset with mepc := 0x800, mstatus := 0x80 } }) =
      some (0x800, .user) ∧
    see (fun t => (t.csr.mcause, t.csr.mtval))
      (stepWord 0x30200073 { start .v3b 0x1000 [] [] with priv := .user }) = some (2, 0x30200073) := by decide +kernel

/-- V31 lines 8 and 10, V66 line 6: wfi sleeps with the pc past it. -/
theorem test_v31_wfi :
    see (fun t => (t.pc, t.sleep)) (stepWord 0x10500073 (start .v3c 0x300 [] [])) = some (0x304, .asleep false false) ∧
    see (fun t => (t.pc, t.sleep)) (stepWord 0x10500073 { start .v3c 0x300 [] [] with
      pfic := { Pfic.reset with sctlr := 4 } }) = some (0x304, .asleep true false) := by decide +kernel

/-- V1: fence and fence.i go on; V62 lines 1 and 2: PFIC_ISR0 after reset. -/
theorem test_fences_and_isr0 :
    see (·.pc) (stepWord 0x8330000F (start .v3c 0x1000 [] [])) = some 0x1004 ∧
    see (fun t => (t.pc, t.stale)) (stepWord 0x0000100F (start .v3c 0x1000 [] [])) = some (0x1004, []) ∧
    see (·.readReg 10) (stepWord 0x0005A503 (start .v3b 0x1000 [(11, 0xE000E000)] [])) = some 0x32C ∧
    see (·.readReg 10) (stepWord 0x0005A503 (start .v3a 0x1000 [(11, 0xE000E000)] [])) = some 0xC := by decide +kernel

/-- V40 lines 8 and 17, V41 line 1: an interrupt through the table, and through the table's word. -/
theorem test_v40_interrupt_entry :
    see trapView (({ start .v3c 0x1000 [] [] with csr := { Csrs.reset with mstatus := 8, mtvec := 0x401 } } : State).takeInterrupt 14) =
      some ([0x1000, 0x8000000E, 0, 0x1880, 0x438], .machine) ∧
    see trapView (({ start .v3b 0x1000 [] [(0x450, 0x3301)] with
      csr := { Csrs.reset with mstatus := 8, mtvec := 0x403 } } : State).takeInterrupt 20) =
      some ([0x1000, 0x80000014, 0, 0x1880, 0x3300], .machine) := by decide +kernel

/-- The regions of V52. -/
def v52 : Csrs := { Csrs.reset with pmpcfg0 := 0x1D1F98, pmpaddr := #v[0x08001C00, 0x08000FFF, 0x7FFF, 0] }

/-- V52 lines 1 to 13. -/
theorem test_v52_pmp : ∀ p ∈ ([(.user, .fetch, 0x100, true), (.user, .store, 0x100, false), (.user, .load, 0x3FFFC, true),
    (.user, .load, 0x40000, false), (.machine, .load, 0x40000, true), (.user, .store, 0x20000000, true),
    (.user, .load, 0x20007FFC, true), (.user, .load, 0x20008000, false), (.user, .load, 0x20007000, false),
    (.machine, .store, 0x20007004, false), (.machine, .store, 0x20007008, true), (.machine, .fetch, 0x20007000, false),
    (.user, .store, 0x20006FFC, true)] : List (Priv × Access × Nat × Bool)),
    pmpCheck v52 p.1 p.2.1 p.2.2.1 = p.2.2.2 := by decide +kernel

/-- V65 lines 3 and 4: counting down to the flag, and the HCLK/8 divider. -/
theorem test_v65_timer :
    (let s := { start .v3b 0x1000 [] [] with stk := { SysTick.reset with ctlr := 0x1D, cntl := 3, cmpl := 9 } }
    ((s.hclkPeriods 3).stk.cntl, (s.hclkPeriods 3).stk.sr, (s.hclkPeriods 4).stk.cntl) = (0, 1, 9)) ∧
    (let s := { start .v3b 0x1000 [] [] with stk := { SysTick.reset with ctlr := 1, cmpl := 9 } }
    (s.hclkPeriods 8).stk.cntl = 1) := by decide +kernel

/-- The placed word is what the next step runs, at the reset state itself. -/
theorem test_withFetchWord_runs :
    see (·.readReg 10) (step (State.reset.withFetchWord 32 0xFFD58513)) = some 0xFFFFFFFD := by decide +kernel


/-! ## Single rules of the second reading -/

/-- R406: a parcel that XW_DECODE gives the meaning of a byte load (R401) runs, and without one it is refused (D16). -/
theorem test_r406_xw_decode :
    (let s := { loadStart with
      cfg := { Config.standard with xwDecode := [(0x2000, .load .byte false 10 (.add (.reg 11) (.const 3)))] } }
    see (fun t => (t.readReg 10, t.pc)) (stepWord 0x2000 s) = some (0x92, 0x1002)) ∧
    see (·.pc) (stepWord 0x2000 loadStart) = none := by decide +kernel

/-- R491: NMI is taken over an exception handler that runs inside its own handler, and not directly over its own. -/
theorem test_r491_nmi_over_nested_handler :
    (let s := { start .v3c 0x1000 [] [] with pfic := { Pfic.reset with pend := 4 }, handlers := [3, 2] }
    s.acceptedInterrupt = some 2 ∧ ({ s with handlers := [2] } : State).acceptedInterrupt = none) := by decide +kernel

/-- R566, D25: without a debugger data0's address holds nothing; with one it holds data0. -/
theorem test_r566_debug_window :
    (let s := start .v3c 0x1000 [(11, 0xE00000F4)] []
    s.target 0xE00000F4 = .unmapped ∧
      ({ s with cfg := { Config.standard with debugger := true } } : State).target 0xE00000F4 = .debugData) := by
  decide +kernel

/-- R570: a halt at an ebreak with ebreakm set has the ebreak's cause, and elsewhere the halt request's. -/
theorem test_r570_cause_priority :
    (let s := { start .v3c 0x1000 [] [] with
      csr := { Csrs.reset with dcsr := 0x40008000 }
      dm := { DebugModule.reset with haltreq := true } }
    see (fun t => (t.csr.dcsr.extractLsb' 6 3, t.csr.dpc)) (stepWord 0x9002 s) = some (1, 0x1000) ∧
      see (fun t => t.csr.dcsr.extractLsb' 6 3) (stepWord 0x00000013 s) = some 3) := by decide +kernel

/-- R272 in the program buffer (R570): the mode becomes MPP. -/
theorem test_r272_mret_in_program_buffer :
    see (fun t => (t.priv, t.dbg))
      (execMret { start .v3c 0 [] [] with dbg := .progbuf, csr := { Csrs.reset with mstatus := 0x80 } }) =
      some (.user, .progbuf) := by decide +kernel

/-- R301: the hart's store to a reserved word of the interrupt controller leaves the reservation uncertain. -/
theorem test_r301_device_store :
    see (·.resv) (stepWord 0x00C5A023 { start .v3a 0x1000 [(11, 0xE000E100), (12, 0)] [] with
      resv := some ⟨0xE000E100, true⟩ }) = some (some ⟨0xE000E100, false⟩) := by decide +kernel

/-! ## Witnesses: for every statement with hypotheses, states and operands that meet them, each clause at a boundary -/

/-- A result that is read off as an option. -/
theorem ok_of_toOption {ε α : Type} {r : Except ε α} {a : α} (h : r.toOption = some a) : r = .ok a := by
  cases r with
  | ok b => simpa [Except.toOption] using h
  | error _ => simp [Except.toOption] at h

/-- The rejection that `rejection` names. -/
theorem error_of_rejection {α : Type} {r : Except DecodeReject α} {e : DecodeReject}
    (h : rejection r = rejection (.error e : Except DecodeReject α)) : r = .error e := by
  cases r with
  | ok b => cases e <;> simp [rejection] at h
  | error d => cases d <;> cases e <;> simp [rejection] at h ⊢ <;> first | exact h | exact BitVec.eq_of_toNat_eq h

/-- V3C, awake in machine mode, with registers at the ends of the address space. -/
def edges (m : Model) : State :=
  start m 0x1000 [(1, 0xFFFFFFFF), (2, 0xFFFFFF00), (5, 0xFFFFFFFC), (6, 0xFFFFFFFE), (8, 0xFFFFFF80)] []

/-- The same in user mode: on V3C the PMP with no region set up denies every access (D18). -/
def userEdges : State := { edges .v3c with priv := .user }

theorem test_witness_DecodeOfEncode :
    ∀ i ∈ [Instr.jal 31 0x1FFFFE, .cAddi4spn 7 1020, .cLui 31 63, .cAddi16sp 0x200, .scW true true 31 31 31],
      i.wf = true := by decide

theorem test_witness_EncodeOfDecode :
    decode [0x13, 0x85, 0xD5, 0xFF] = .ok (.addi 10 11 0xFFD, 4) ∧ decode [0x01, 0x71, 0xFF] = .ok (.cAddi16sp 0x200, 2) :=
  ⟨ok_of_toOption (by decide +kernel), ok_of_toOption (by decide +kernel)⟩

/-- A word in the middle of memory, a parcel in its last halfword, a word that wraps to address 0 (R111). -/
theorem test_witness_StepRunsInstruction :
    (let s := (start .v3c 0x1000 [] []).withFetchWord 32 0xFFD58513
    Undisturbed s ∧ CodeFetchable s 4 ∧ decode (codeBytes s) = .ok (.addi 10 11 0xFFD, 4)) ∧
    (let s := (start .v3c 0xFFFFFFFE [] []).withFetchWord 16 0x7101
    Undisturbed s ∧ CodeFetchable s 2 ∧ decode (codeBytes s) = .ok (.cAddi16sp 0x200, 2)) ∧
    (let s := (start .v3c 0xFFFFFFFE [] []).withFetchWord 32 0xFFD58513
    Undisturbed s ∧ CodeFetchable s 4 ∧ decode (codeBytes s) = .ok (.addi 10 11 0xFFD, 4)) := by
  unfold Undisturbed Quiet CodeFetchable Fetchable
  refine ⟨⟨by decide +kernel, by decide +kernel, ok_of_toOption (by decide +kernel)⟩,
    ⟨by decide +kernel, by decide +kernel, ok_of_toOption (by decide +kernel)⟩,
    by decide +kernel, by decide +kernel, ok_of_toOption (by decide +kernel)⟩

/-- A machine whose memory ends at 0x2000, with the first parcel of a 32-bit instruction in its last halfword. -/
def lastParcel : State :=
  ({ edges .v3b with pc := 0x1FFE, cfg := { Config.standard with model := .v3b, memmap := [⟨0, 0x2000, .memory⟩] } } :
    State).withFetchWord 32 0x00000013

/-- At the deepest level a trap can be entered from; the slots of vendor words on V3A and on V3C. -/
theorem test_witness_StepTrapsAtFetch_decode :
    (let s := { start .v3c 0x1000 [] [] with handlers := [12, 14, 20] }.withFetchWord 32 0xFFFFFFFF
    Undisturbed s ∧ CanTrap s 3 0 ∧ CodeFetchable s 4 ∧ decode (codeBytes s) = .error (.illegalWord 0xFFFFFFFF)) ∧
    (let s := (start .v3a 0x1000 [] []).withFetchWord 32 0x0000000B
    Undisturbed s ∧ CanTrap s 3 0 ∧ CodeFetchable s 4 ∧ decode (codeBytes s) = .error (.vendorWord 0xB) ∧
      s.cfg.model = .v3a) ∧
    (let s := (start .v3c 0x1000 [] []).withFetchWord 16 0
    Undisturbed s ∧ CanTrap s 3 0 ∧ CodeFetchable s 2 ∧ decode (codeBytes s) = .error (.illegalHalf 0)) ∧
    (let s := (start .v3a 0xFFFFFFFE [] []).withFetchWord 16 0xE002
    Undisturbed s ∧ CanTrap s 3 0 ∧ CodeFetchable s 2 ∧ decode (codeBytes s) = .error (.vendorHalf 0xE002) ∧
      s.cfg.model = .v3a) ∧
    (let s := (start .v3b 0x1000 [] []).withFetchWord 32 0x0000000B
    Undisturbed s ∧ CodeFetchable s 4 ∧ decode (codeBytes s) = .error (.vendorWord 0xB) ∧
      s.cfg.model ≠ .v3a ∧ s.cfg.xwDecode.lookup 0xB = none) ∧
    (let s := (start .v3c 0x1000 [] []).withFetchWord 16 0x2000
    Undisturbed s ∧ CodeFetchable s 2 ∧ decode (codeBytes s) = .error (.vendorHalf 0x2000) ∧
      s.cfg.model ≠ .v3a ∧ s.cfg.xwDecode.lookup ((0x2000 : Half).zeroExtend 32) = none) := by
  unfold Undisturbed Quiet CanTrap EntryOf CodeFetchable Fetchable
  refine ⟨⟨by decide +kernel, by decide +kernel, by decide +kernel, error_of_rejection (by decide +kernel)⟩,
    ⟨by decide +kernel, by decide +kernel, by decide +kernel, error_of_rejection (by decide +kernel), by decide +kernel⟩,
    ⟨by decide +kernel, by decide +kernel, by decide +kernel, error_of_rejection (by decide +kernel)⟩,
    ⟨by decide +kernel, by decide +kernel, by decide +kernel, error_of_rejection (by decide +kernel), by decide +kernel⟩,
    ⟨by decide +kernel, by decide +kernel, error_of_rejection (by decide +kernel), by decide +kernel⟩,
    by decide +kernel, by decide +kernel, error_of_rejection (by decide +kernel), by decide +kernel⟩

/-- Fetches that the PMP denies, from a device of the core, from where nothing is; a second parcel past the end of
memory. -/
theorem test_witness_StepTrapsAtFetch_access :
    (∀ s ∈ [userEdges, { edges .v3a with pc := 0xE000E000 },
        { edges .v3b with cfg := { Config.standard with model := .v3b, memmap := [] } }],
      Undisturbed s ∧ CanTrap s 3 0 ∧ FetchFails s s.pc) ∧
    (let s := lastParcel
    Undisturbed s ∧ CanTrap s 3 0 ∧ Fetchable s s.pc ∧ (Memory.read s.mem s.pc.toNat).extractLsb' 0 2 = 3 ∧
      FetchFails s (s.pc + 2)) := by
  unfold Undisturbed Quiet CanTrap EntryOf Fetchable FetchFails; decide +kernel

/-- A zero divisor, and the operands of the overflow. -/
theorem test_witness_ProductsAndDivisions :
    (edges .v3c).readReg 12 = 0 ∧ (start .v3c 0x1000 [(11, 0x80000000), (12, 0xFFFFFFFF)] []).readReg 12 ≠ 0 := by
  decide +kernel

/-- The last byte, halfword and word of the address space. -/
theorem test_witness_LoadsReadMemory :
    let s := edges .v3c
    ReachesMemory s .load .byte (s.readReg 1 + BitVec.ofInt 32 (0 : BitVec 12).toInt) ∧
      ReachesMemory s .load .half (s.readReg 1 + BitVec.ofInt 32 (0xFFF : BitVec 12).toInt) ∧
      ReachesMemory s .load .word (s.readReg 1 + BitVec.ofInt 32 (0xFFD : BitVec 12).toInt) ∧
      ReachesMemory s .load .word (s.readReg (wideReg 0) + BitVec.ofNat 32 (124 : BitVec 7).toNat) ∧
      ReachesMemory s .load .word (s.readReg 2 + BitVec.ofNat 32 (252 : BitVec 8).toNat) := by
  unfold ReachesMemory; decide +kernel

theorem test_witness_StoresWriteMemory :
    let s := edges .v3c
    MemoryCanonical s ∧ ReachesMemory s .store .byte (s.readReg 1 + BitVec.ofInt 32 (0 : BitVec 12).toInt) ∧
      ReachesMemory s .store .half (s.readReg 1 + BitVec.ofInt 32 (0xFFF : BitVec 12).toInt) ∧
      ReachesMemory s .store .word (s.readReg 1 + BitVec.ofInt 32 (0xFFD : BitVec 12).toInt) ∧
      ReachesMemory s .store .word (s.readReg (wideReg 0) + BitVec.ofNat 32 (124 : BitVec 7).toNat) ∧
      ReachesMemory s .store .word (s.readReg 2 + BitVec.ofNat 32 (252 : BitVec 8).toNat) := by
  unfold ReachesMemory; decide +kernel

/-- Odd and half-aligned addresses for the base plus an offset, the compact base and the stack pointer, at the deepest
level a trap can be entered from; on V3A an entry at the table's slot. -/
theorem test_witness_MisalignedAccessesTrap :
    (let s := { start .v3c 0x1000 [(1, 0xFFFFFFFF), (2, 0xFFFFFF02), (8, 0xFFFFFF81)] [] with handlers := [12, 14, 20] }
    s.dbg = .running ∧ CanTrap s 3 0 ∧
      (let a := s.readReg 1 + BitVec.ofInt 32 (0 : BitVec 12).toInt
      a.toNat % 2 ≠ 0 ∧ a.toNat % 4 ≠ 0 ∧ s.firedTrigger .load a = none ∧ s.firedTrigger .store a = none) ∧
      (let c := s.readReg (wideReg 0) + BitVec.ofNat 32 (124 : BitVec 7).toNat
      c.toNat % 4 ≠ 0 ∧ s.firedTrigger .load c = none ∧ s.firedTrigger .store c = none) ∧
      (let p := s.readReg 2 + BitVec.ofNat 32 (252 : BitVec 8).toNat
      p.toNat % 4 ≠ 0 ∧ s.firedTrigger .load p = none ∧ s.firedTrigger .store p = none)) ∧
    (let s := { edges .v3a with csr := { Csrs.reset with mtvec := 0x401 } }
    s.dbg = .running ∧ CanTrap s 3 0x40C ∧ (s.readReg 6).toNat % 4 ≠ 0 ∧ s.cfg.model = .v3a) := by
  unfold CanTrap EntryOf; decide +kernel

/-- Denied by the PMP, and at an address that holds nothing, reached with an offset, from the compact base and from the
stack pointer; on V3A for the atomics, with and without a reservation. -/
theorem test_witness_AccessErrorsEndTheRun :
    (∀ s ∈ [userEdges, { edges .v3c with cfg := { Config.standard with memmap := [] } }],
      s.dbg = .running ∧ s.readReg 5 + BitVec.ofInt 32 (0 : BitVec 12).toInt = 0xFFFFFFFC ∧
        s.readReg (wideReg 0) + BitVec.ofNat 32 (124 : BitVec 7).toNat = 0xFFFFFFFC ∧
        s.readReg 2 + BitVec.ofNat 32 (252 : BitVec 8).toNat = 0xFFFFFFFC ∧
        s.firedTrigger .load 0xFFFFFFFC = none ∧ s.firedTrigger .store 0xFFFFFFFC = none) ∧
    (userEdges.pmpAllows .load 0xFFFFFFFC = false ∧ userEdges.pmpAllows .store 0xFFFFFFFC = false ∧
      ({ edges .v3c with cfg := { Config.standard with memmap := [] } } : State).target 0xFFFFFFFC = .unmapped) ∧
    (let s := { edges .v3a with
      cfg := { Config.standard with model := .v3a, memmap := [] }
      resv := some ⟨0xFFFFFFFC, true⟩ }
    s.dbg = .running ∧ s.cfg.model = .v3a ∧ s.readReg 5 = 0xFFFFFFFC ∧ s.target 0xFFFFFFFC = .unmapped ∧
      s.resv = some ⟨0xFFFFFFFC, true⟩) := by decide +kernel

/-- fence.i answers a next state, from a state whose fetch buffer may hold old bytes. -/
theorem test_witness_FencesAndWfi_fence :
    ∃ t, exec (.fenceI 0 0 0) { edges .v3c with stale := [(0x1000, 1)] } = .next t := ⟨_, rfl⟩

/-- Both modes, both slot maps, the deepest level, and the word of the vector table. -/
theorem test_witness_EcallAndBreakpoints_ecall :
    (∀ s ∈ [edges .v3a, edges .v3b, userEdges, { edges .v3c with handlers := [12, 14, 20] }],
      s.dbg = .running ∧
        CanTrap s (if s.cfg.model = .v3a then 3 else if s.priv = .machine then 5 else 8) 0) ∧
    (let s := { start .v3c 0x1000 [] [(0x420, 0x3301)] with csr := { Csrs.reset with mtvec := 0x403 }, priv := .user }
    s.dbg = .running ∧
      CanTrap s (if s.cfg.model = .v3a then 3 else if s.priv = .machine then 5 else 8) 0x3300) := by
  unfold CanTrap EntryOf; decide +kernel

/-- Both outcomes in both modes. -/
theorem test_witness_EcallAndBreakpoints_break :
    (let s := edges .v3c
    s.dbg = .running ∧ s.csr.dcsr.getLsbD (if s.priv = .machine then 15 else 12) = false ∧ CanTrap s 9 0) ∧
    (let s := { edges .v3c with csr := { Csrs.reset with dcsr := 0x40008000 } }
    s.dbg = .running ∧ s.csr.dcsr.getLsbD (if s.priv = .machine then 15 else 12) = true) ∧
    (let s := { userEdges with csr := { Csrs.reset with dcsr := 0x40008000 } }
    s.dbg = .running ∧ s.csr.dcsr.getLsbD (if s.priv = .machine then 15 else 12) = false ∧ CanTrap s 9 0) ∧
    (let s := { userEdges with csr := { Csrs.reset with dcsr := 0x40001000 } }
    s.dbg = .running ∧ s.csr.dcsr.getLsbD (if s.priv = .machine then 15 else 12) = true) := by
  unfold CanTrap EntryOf; decide +kernel

/-- No handler, one, and two; the program buffer entered from user mode. -/
theorem test_witness_MretReturns :
    (∀ s ∈ [edges .v3c, { userEdges with dbg := .progbuf }], s.effPriv = .machine ∧ s.handlers = []) ∧
    (let s := { edges .v3c with handlers := [14] }
    s.effPriv = .machine ∧ s.handlers = 14 :: [] ∧ s.hpeSwitch = false ∧ s.hpe[0]? = some .empty) ∧
    (let s := { edges .v3a with handlers := [14, 3], pfic := { Pfic.reset with cfgr := 1, sctlr := 6 } }
    s.effPriv = .machine ∧ s.handlers = 14 :: [3] ∧ s.hpeSwitch = false ∧ s.hpe[1]? = some .empty) := by
  decide +kernel

theorem test_witness_FencesAndWfi_wfi :
    ({ edges .v3c with dbg := .progbuf } : State).dbg ≠ .running ∧
    (let s := { edges .v3c with pfic := { Pfic.reset with sctlr := 8 }, eventLatch := true }
    s.dbg = .running ∧ (s.pfic.sctlr.getLsbD 3 && s.eventLatch) = true) ∧
    (let s := { edges .v3c with pfic := { Pfic.reset with sctlr := 12 } }
    s.dbg = .running ∧ (s.pfic.sctlr.getLsbD 3 && s.eventLatch) = false) := by decide +kernel

/-- Machine mode, and user mode inside debug mode. -/
theorem test_witness_CsrInstructionsExchange :
    (edges .v3a).effPriv = .machine ∧ ({ userEdges with dbg := .progbuf } : State).effPriv = .machine := by decide +kernel

/-- The CSRs after reset are legal, on every model. -/
theorem test_reset_csrs_legal (m : Model) : CsrFieldsLegal m Csrs.reset where
  mstatusBits := by decide
  mppMode := .inl (by decide)
  mtvecBits := by decide
  mtvecMode := fun _ => by decide
  pmpcfgBits := by decide
  tdata1Bits := by decide
  dcsrBits := by decide
  prvMode := .inl (by decide)
  intsyscrBits := by decide
  corecfgrBits := by decide
  fetchMode := by decide
  inestcrBits := by decide

/-- Each model, and the deepest level of the thermometer code. -/
theorem test_witness_CsrReadValues :
    ((edges .v3a).effPriv = .machine ∧ (edges .v3a).cfg.model = .v3a) ∧
    (let s := { edges .v3b with handlers := [12, 14, 20, 21] }
    s.effPriv = .machine ∧ s.cfg.model ≠ .v3a ∧ CsrFieldsLegal s.cfg.model s.csr ∧ s.level ≤ 4) :=
  ⟨by decide +kernel, by decide +kernel, by decide +kernel, test_reset_csrs_legal _, by decide +kernel⟩

/-- The two places of the hardware stack, without what their frames hold. -/
def places (t : State) : List Nat :=
  t.hpe.toList.map fun x => match x with
    | .empty => 0
    | .saved _ => 1
    | .unbalanced => 2

/-- A machine in a handler of level 1, with a value for intsyscr in x5. -/
def inHandler (place : HpeSlot) (v : Word) : State :=
  { start .v3b 0x1000 [(5, v)] [] with handlers := [14], hpe := #v[place, .saved (Vector.replicate 16 7)] }

/-- intsyscr switches the hardware stack on in a handler: the handler's frame is unbalanced, that of a level that does
not run is as it was (R446, R604). -/
theorem test_stack_switched_on :
    see places (exec (.csrrw 0 0x804 5) (inHandler .empty 0xE003)) = some [2, 1] := by decide +kernel

/-- Switching back does not pair it again, and a write that does not switch it changes nothing. -/
theorem test_stack_stays_unbalanced :
    see places (exec (.csrrw 0 0x804 5) (inHandler .unbalanced 0xE003)) = some [2, 1] ∧
      see places (exec (.csrrw 0 0x804 5) (inHandler .empty 0xE002)) = some [0, 1] := by decide +kernel

/-- PFIC_CFGR switches it off on V3A. -/
theorem test_stack_switched_off :
    see places (exec (.sw 12 11 0)
      { start .v3a 0x1000 [(11, 0xE000E048), (12, 0xFA050001)] [] with
        handlers := [14], hpe := #v[.saved (Vector.replicate 16 7), .empty] }) = some [2, 0] := by decide +kernel

/-- MPP 00 and 11, FETCH_MODE 11, the stack switched on in a handler, and both kinds of model. -/
theorem test_witness_CsrWriteFields :
    (let s := start .v3c 0x1000 [(5, 0xFFFFFFFF)] []
    s.effPriv = .machine ∧ (s.readReg 5).extractLsb' 11 2 = 3 ∧ s.cfg.model ≠ .v3a ∧ (s.readReg 5).extractLsb' 0 2 ≠ 2) ∧
    (let s := { start .v3c 0x1000 [(5, 0xE003)] [] with handlers := [14] }
    s.effPriv = .machine ∧ s.cfg.model ≠ .v3a ∧ (s.readReg 5).getLsbD 0 ≠ s.hpeEnabled) ∧
    ((edges .v3a).effPriv = .machine ∧ ((edges .v3a).readReg 0).extractLsb' 11 2 = 0) := by decide +kernel

/-- V3C with regions 0 and 2 locked, region 2 in TOR mode, and the values 0 and all ones in x6 and x5. -/
def lockedRegions : State :=
  { start .v3c 0x1000 [(5, 0xFFFFFFFF)] [] with csr := { Csrs.reset with pmpcfg0 := 0x008F009F } }

/-- The mode in which the registers can be written, and the values 0xFFFFFFFF and 0 to write. -/
theorem test_witness_PmpRegisters_mode :
    lockedRegions.effPriv = .machine ∧ lockedRegions.cfg.model = .v3c ∧ lockedRegions.readReg 5 = 0xFFFFFFFF ∧
      lockedRegions.readReg 6 = 0 := by decide +kernel

/-- Field `i` of a pmpcfg0 value. -/
def cfgField (w : Word) (i : Nat) : Byte := w.extractLsb' (8 * i) 8

/-- The four fields, lowest first. -/
def cfgFields (w : Word) : List Byte := [cfgField w 0, cfgField w 1, cfgField w 2, cfgField w 3]

/-- Writing 0xFFFFFFFF leaves 0x9F8F9F9F, 0 leaves 0x008F009F and 0x02000000 leaves 0x028F009F: fields 0 and 2 are locked
and kept, 1 and 3 are taken without their reserved bits. Only the last value has a field that is W without R. -/
theorem test_witness_PmpRegisters_write :
    lockedRegions.cfg.pmpLockClearable = false ∧ cfgFields lockedRegions.csr.pmpcfg0 = [0x9F, 0, 0x8F, 0] ∧
      cfgFields 0x9F8F9F9F = [0x9F, 0xFF &&& 0x9F, 0x8F, 0xFF &&& 0x9F] ∧ cfgFields 0x008F009F = [0x9F, 0, 0x8F, 0] ∧
      cfgFields 0x028F009F = [0x9F, 0, 0x8F, 0x02 &&& 0x9F] ∧
      (∀ b ∈ ([0x9F, 0x8F, 0] : List Byte), ¬(b.getLsbD 0 = false ∧ b.getLsbD 1 = true)) ∧
      (0x02 : Byte).getLsbD 0 = false ∧ (0x02 : Byte).getLsbD 1 = true := by decide +kernel

/-- Registers 0 and 2 are fixed by their own locks, 1 by the lock of the TOR region above it; 3 is not. -/
theorem test_witness_PmpRegisters_fixed : ∀ i, i < 4 →
    (decide ((cfgField lockedRegions.csr.pmpcfg0 i).getLsbD 7 = true ∨
      (i < 3 ∧ (cfgField lockedRegions.csr.pmpcfg0 (i + 1)).getLsbD 7 = true ∧
        (cfgField lockedRegions.csr.pmpcfg0 (i + 1)).extractLsb' 3 2 = 1)) = (i != 3)) := by decide +kernel

/-- Debug mode, machine mode outside it; a channel that is there and one that is not, in both; both values of prv. -/
theorem test_witness_TriggerAndDebugRegisters :
    (let s := { start .v3b 0x1000 [(5, 0xFFFFFFFF)] [] with dbg := .progbuf, priv := .user }
    s.dbg ≠ .running ∧ (s.readReg 5).extractLsb' 0 2 = 3 ∧ (s.readReg 6).extractLsb' 0 2 = 0 ∧ s.cfg.model ≠ .v3a ∧
      s.effPriv = .machine ∧ s.csr.tselect.toNat < s.cfg.triggerChannels) ∧
    (∀ d ∈ [DebugState.running, .progbuf],
      let s := { edges .v3c with cfg := { Config.standard with triggerChannels := 3 }, dbg := d,
                                 csr := { Csrs.reset with tselect := 3 } }
      s.dbg = d ∧ s.cfg.model ≠ .v3a ∧ s.effPriv = .machine ∧ ¬s.csr.tselect.toNat < s.cfg.triggerChannels) := by
  decide +kernel

/-- Each way a CSR access is forbidden, and mret in user mode. -/
theorem test_witness_ForbiddenCsrAccessesTrap :
    (let s := edges .v3c
    (s.dbg = .running ∧ CanTrap s 3 0) ∧ CsrForbidden s 0xF14 false ∧ CsrForbidden s 0x7B0 false ∧
      CsrForbidden s 0xF12 true ∧ CsrForbidden s 0xF12 (decide ((31 : Reg) ≠ 0))) ∧
    (let s := userEdges
    (s.dbg = .running ∧ CanTrap s 3 0 ∧ s.priv = .user) ∧ CsrForbidden s 0x300 false) ∧
    (let s := { userEdges with csr := { Csrs.reset with intsyscr := 0x8000E002 } }
    (s.dbg = .running ∧ CanTrap s 3 0) ∧ CsrForbidden s 0x804 false) := by
  unfold CanTrap EntryOf
  exact ⟨⟨by decide +kernel, .inl rfl, .inr (.inl (by decide +kernel)), .inr (.inr (.inr (.inr (by decide +kernel)))),
      .inr (.inr (.inr (.inr (by decide +kernel))))⟩,
    ⟨by decide +kernel, .inr (.inr (.inl (by decide +kernel)))⟩,
    by decide +kernel, .inr (.inr (.inr (.inl (by decide +kernel))))⟩

theorem test_witness_LoadReservedStoreConditional_lr :
    (edges .v3a).cfg.model = .v3a ∧ ReachesMemory (edges .v3a) .load .word ((edges .v3a).readReg 5) := by
  unfold ReachesMemory; decide +kernel

/-- The reserved word, no reservation, another word's reservation, and one whose validity is not defined. -/
theorem test_witness_LoadReservedStoreConditional_sc :
    (let s := { edges .v3a with resv := some ⟨0xFFFFFFFC, true⟩ }
    s.cfg.model = .v3a ∧ MemoryCanonical s ∧ s.resv = some ⟨s.readReg 5, true⟩ ∧
      ReachesMemory s .store .word (s.readReg 5)) ∧
    (let s := edges .v3a
    MemoryCanonical s ∧ (s.readReg 5).toNat % 4 = 0 ∧ ∀ r, s.resv = some r → r.addr ≠ s.readReg 5) ∧
    (let s := { edges .v3a with resv := some ⟨0xFFFFFFF8, true⟩ }
    MemoryCanonical s ∧ (s.readReg 5).toNat % 4 = 0 ∧ ∀ r, s.resv = some r → r.addr ≠ s.readReg 5) ∧
    (let s := { edges .v3a with resv := some ⟨0xFFFFFFFC, false⟩ }
    MemoryCanonical s ∧ s.resv = some ⟨s.readReg 5, false⟩ ∧ ReachesMemory s .store .word (s.readReg 5)) := by
  refine ⟨?_, ⟨by decide +kernel, by decide +kernel, ?_⟩, ⟨by decide +kernel, by decide +kernel, ?_⟩, ?_⟩
  · unfold ReachesMemory; decide +kernel
  · intro r h; cases h
  · intro r h; cases h; decide +kernel
  · unfold ReachesMemory; decide +kernel

theorem test_witness_AtomicUpdates :
    (edges .v3a).cfg.model = .v3a ∧ MemoryCanonical (edges .v3a) ∧
      ReachesMemory (edges .v3a) .amo .word ((edges .v3a).readReg 5) := by
  unfold ReachesMemory; decide +kernel

/-- The model without A, the models without B, and each sub-extension left out. -/
theorem test_witness_AbsentExtensionsTrap :
    (∀ s ∈ [edges .v3a, edges .v3b, edges .v3c], s.dbg = .running ∧ CanTrap s 3 0) ∧ (edges .v3b).cfg.model ≠ .v3a ∧
      (edges .v3a).cfg.model = .v3a ∧
    (let s := { edges .v3c with cfg := { Config.standard with zba := false, zbb := false, zbc := false, zbs := false } }
    s.dbg = .running ∧ CanTrap s 3 0 ∧ s.cfg.zba = false ∧ s.cfg.zbb = false ∧ s.cfg.zbc = false ∧
      s.cfg.zbs = false) := by
  unfold CanTrap EntryOf; decide +kernel

theorem test_witness_AddressSumsAndCarrylessProducts :
    (edges .v3b).cfg.model ≠ .v3a ∧ (edges .v3b).cfg.zba = true ∧ (edges .v3b).cfg.zbc = true := by decide

/-- For LogicExtremesAndCounts and for ExtensionsRotationsBytes. -/
theorem test_witness_LogicExtremesAndCounts : (edges .v3c).cfg.model ≠ .v3a ∧ (edges .v3c).cfg.zbb = true := by decide

theorem test_witness_SingleBits : (edges .v3c).cfg.model ≠ .v3a ∧ (edges .v3c).cfg.zbs = true := by decide

/-- After reset no VTF channel is for interrupt 255, on any model. -/
theorem test_no_vtf (m : Model) (k : Nat) : (edges m).vtfFor 255 k = false := by
  have hv : (edges m).pfic.vtfaddrr = Vector.replicate 4 0 := rfl
  unfold State.vtfFor
  rw [hv]
  rcases Nat.lt_or_ge k 4 with hk | hk
  · have : (Vector.replicate 4 (0 : Word))[k]? = some 0 := by simp [hk]
    rw [this]
    cases m <;> decide +revert
  · have : (Vector.replicate 4 (0 : Word))[k]? = none := by simp [hk]
    rw [this]

/-- Entries for an exception and for the highest interrupt, at level 3 and through the word of the vector table. -/
theorem test_witness_TrapEntrySequence :
    (let s := { edges .v3c with handlers := [12, 14, 20] }
    CanTrap s (excSlot s.cfg.model (.breakpoint 0)) 0) ∧
    (let s := { start .v3c 0x1000 [] [(0x7FC, 0x3301)] with csr := { Csrs.reset with mtvec := 0x403 } }
    CanTrap s 255 0x3300) ∧ (∀ k, (edges .v3c).vtfFor 255 k = false) := by
  refine ⟨?_, ?_, fun k => test_no_vtf _ k⟩ <;> unfold CanTrap EntryOf <;> decide +kernel

theorem test_witness_EveryTrapEntersMachineMode :
    (∃ t, userEdges.takeException .ecallFromU = .next t) ∧ (∃ t, userEdges.takeInterrupt 255 = .next t) :=
  ⟨⟨_, rfl⟩, ⟨_, rfl⟩⟩

/-- The table entered, its word read, a word that nothing backs, and the lowest and the highest VTF channel on V3B and
on V3A, all for interrupt 255. -/
theorem test_witness_VectoredEntries :
    let a (s : State) (k : Nat) :=
      (s.csr.mtvec &&& 0xFFFFFC00) + (if s.csr.mtvec.getLsbD 0 then BitVec.ofNat 32 (4 * k) else 0)
    (let s := { edges .v3c with csr := { Csrs.reset with mtvec := 0xFFFFFC01 } }
    s.level < 4 ∧ (∀ k, s.vtfFor 255 k = false) ∧ s.csr.mtvec.getLsbD 1 = false) ∧
    (let s := { edges .v3c with csr := { Csrs.reset with mtvec := 0xFFFFFC03 } }
    (∀ k, s.vtfFor 255 k = false) ∧ s.cfg.model ≠ .v3a ∧ s.csr.mtvec.getLsbD 1 = true ∧
      ∀ k ∈ [3, 5, 8, 9, 255], s.target (a s k) = .memory ∧
        (s.cfg.model = .v3c → pmpCheck s.csr .machine .load (a s k).toNat = true)) ∧
    (let s := { edges .v3c with
      cfg := { Config.standard with memmap := [] }
      csr := { Csrs.reset with mtvec := 0xFFFFFC03 } }
    (∀ k, s.vtfFor 255 k = false) ∧ s.cfg.model ≠ .v3a ∧ s.csr.mtvec.getLsbD 1 = true ∧
      ∀ k ∈ [3, 5, 8, 9, 255], s.target (a s k) ≠ .memory ∧ s.target (a s k) ≠ .chipDevice) ∧
    (let s := { edges .v3b with pfic := { Pfic.reset with vtfidr := 0xFF0000FF, vtfaddrr := #v[0x2001, 0, 0, 0x3001] } }
    s.cfg.model ≠ .v3a ∧ s.pfic.vtfaddrr[(0 : Fin 4)].getLsbD 0 = true ∧
      (s.pfic.vtfidr.extractLsb' 0 8).toNat = 255) ∧
    (let s := { edges .v3b with pfic := { Pfic.reset with vtfidr := 0xFF0000FF, vtfaddrr := #v[0x2000, 0, 0, 0x3001] } }
    s.cfg.model ≠ .v3a ∧ s.pfic.vtfaddrr[(3 : Fin 4)].getLsbD 0 = true ∧
      (s.pfic.vtfidr.extractLsb' 24 8).toNat = 255 ∧
      ∀ j : Fin 4, j < 3 → s.pfic.vtfaddrr[j].getLsbD 0 = false ∨
        (s.pfic.vtfidr.extractLsb' (8 * j.val) 8).toNat ≠ 255) ∧
    (let s := { edges .v3a with pfic := { Pfic.reset with vtfaddrr := #v[0xFE002001, 0, 0, 0xFF003001] } }
    s.cfg.model = .v3a ∧ (255 : Nat) ≠ 0 ∧ (s.pfic.vtfaddrr[(0 : Fin 4)].extractLsb' 24 8).toNat = 254 ∧
      (s.pfic.vtfaddrr[(3 : Fin 4)].extractLsb' 24 8).toNat = 255 ∧
      ∀ j : Fin 4, j < 3 → (s.pfic.vtfaddrr[j].extractLsb' 24 8).toNat ≠ 255) := by
  refine ⟨⟨by decide +kernel, fun k => test_no_vtf .v3c k, by decide +kernel⟩,
    ⟨fun k => test_no_vtf .v3c k, by decide +kernel⟩, ⟨fun k => test_no_vtf .v3c k, by decide +kernel⟩,
    by decide +kernel, by decide +kernel, by decide +kernel⟩

/-- A channel enabled for execution in machine mode, with ACTION 0 or 1 and with MATCH. -/
def armed (m : Model) (c : Fin 4) (t1 t2 : Word) : State :=
  { edges m with
    csr := { Csrs.reset with
      tdata1 := Csrs.reset.tdata1.set c.val (0x2BE00000 ||| t1)
      tdata2 := Csrs.reset.tdata2.set c.val t2 } }

/-- A channel whose equality comparison holds, the lower ones not enabled or at another address. -/
theorem channelMatches_of_eq {s : State} {c : Fin 4} {kind : Nat} {a : Word}
    (h : s.cfg.model ≠ .v3a ∧ c.val < s.cfg.triggerChannels ∧ ChannelEnabled s c kind ∧
      (s.csr.tdata1[c].getLsbD 7 = false ∧ s.csr.tdata2[c] = a) ∧
      ∀ j : Fin 4, j < c → ¬ChannelEnabled s j kind ∨ (s.csr.tdata1[j].getLsbD 7 = false ∧ s.csr.tdata2[j] ≠ a)) :
    ChannelMatches s c kind a :=
  ⟨h.1, h.2.1, h.2.2.1, .inl ⟨h.2.2.2.1.1, h.2.2.2.1.2.symm⟩,
    fun j hj => (h.2.2.2.2 j hj).imp_right fun e => .inl ⟨e.1, e.2.symm⟩⟩

/-- ACTION 0 on the first channel; ACTION 1 on the last one, the first being enabled at another address. -/
theorem test_witness_HardwareTriggers_fetch :
    (let s := armed .v3b 0 0x44 0x1000
    s.dbg = .running ∧ Quiet s ∧ s.csr.tdata1[(0 : Fin 4)].getLsbD 12 = false ∧ CanTrap s 9 0) ∧
    ChannelMatches (armed .v3b 0 0x44 0x1000) 0 2 (armed .v3b 0 0x44 0x1000).pc ∧
    (let s := { armed .v3c 3 0x1044 0x1000 with
      csr := { (armed .v3c 3 0x1044 0x1000).csr with
        tdata1 := (armed .v3c 3 0x1044 0x1000).csr.tdata1.set 0 0x2BE00044 } }
    ChannelMatches s 3 2 s.pc ∧ Quiet s ∧ ChannelEnabled s 0 2 ∧ s.csr.tdata1[(3 : Fin 4)].getLsbD 12 = true) := by
  refine ⟨?_, channelMatches_of_eq ?_, ⟨channelMatches_of_eq ?_, ?_⟩⟩
  · unfold Quiet CanTrap EntryOf; decide +kernel
  · unfold ChannelEnabled; decide +kernel
  · unfold ChannelEnabled; decide +kernel
  · unfold Quiet ChannelEnabled; decide +kernel

/-- With MATCH, tdata2 names the 4 KB around the pc, and 0x2FFF misses it. -/
theorem test_witness_HardwareTriggers_match :
    TriggerAddress 0x2BE000C4 0x17FF 0x1000 ∧ TriggerMisses 0x2BE000C4 0x27FF 0x1000 := by
  refine ⟨.inr ⟨by decide, 11, by decide, by decide, by decide, fun j h hj => ?_⟩,
    .inr ⟨by decide, 11, by decide, by decide, by decide, 13, by decide⟩⟩
  have : ∀ j, j < 32 → 11 < j → (0x1000 : Word).getLsbD j = (0x17FF : Word).getLsbD j := by decide +kernel
  exact this j hj h

/-- On V3C a load and a store at the last word, reached with an offset, from the compact base and the stack pointer. -/
theorem test_witness_HardwareTriggers_data :
    (∀ s ∈ [armed .v3c 3 0x1041 0xFFFFFFFC, armed .v3c 0 0x42 0xFFFFFFFC],
      s.cfg.model = .v3c ∧ s.dbg = .running ∧ s.readReg 5 + BitVec.ofInt 32 (0 : BitVec 12).toInt = 0xFFFFFFFC ∧
        s.readReg (wideReg 0) + BitVec.ofNat 32 (124 : BitVec 7).toNat = 0xFFFFFFFC ∧
        s.readReg 2 + BitVec.ofNat 32 (252 : BitVec 8).toNat = 0xFFFFFFFC) ∧
    (armed .v3c 3 0x1041 0xFFFFFFFC).csr.tdata1[(3 : Fin 4)].getLsbD 12 = true ∧
    (armed .v3c 0 0x42 0xFFFFFFFC).csr.tdata1[(0 : Fin 4)].getLsbD 12 = false ∧
    CanTrap (armed .v3c 0 0x42 0xFFFFFFFC) 9 0 ∧
    ChannelMatches (armed .v3c 3 0x1041 0xFFFFFFFC) 3 0 0xFFFFFFFC ∧
    ChannelMatches (armed .v3c 0 0x42 0xFFFFFFFC) 0 1 0xFFFFFFFC := by
  refine ⟨?_, ?_, ?_, ?_, channelMatches_of_eq ?_, channelMatches_of_eq ?_⟩ <;>
    (try unfold CanTrap EntryOf) <;> (try unfold ChannelEnabled) <;> decide +kernel

/-- Interrupt 20 pending and enabled. -/
def requesting (m : Model) : State :=
  { edges m with
    csr := { Csrs.reset with mstatus := 8 }
    pfic := { Pfic.reset with en := BitVec.twoPow 256 20, pend := BitVec.twoPow 256 20 } }

/-- An awake core and a sleeping one. -/
theorem test_witness_InterruptAtBoundary : ∀ s ∈ [requesting .v3a, { requesting .v3c with sleep := .asleep true true }],
    s.dbg = .running ∧ s.inputs = [] ∧ s.dm.haltreq = false ∧ s.sampledInterrupt = some 20 := by decide +kernel

/-- V3B with the hardware stack on, at level 0 and at level 1; V3A after reset; an exception and an interrupt. -/
theorem test_witness_HardwareStackRoundTrip :
    ∀ s ∈ [edges .v3a, { edges .v3b with csr := { Csrs.reset with intsyscr := 0xE003 } },
        { edges .v3b with csr := { Csrs.reset with intsyscr := 0xE003 }, handlers := [14] }],
      s.level ≤ 1 ∧ s.hpeEnabled = true ∧ (∃ t, s.takeException .ecallFromM = .next t) ∧
        ∃ t, s.takeInterrupt 255 = .next t := by
  intro s hs
  simp only [List.mem_cons, List.not_mem_nil, or_false] at hs
  rcases hs with rfl | rfl | rfl <;> exact ⟨by decide +kernel, by decide +kernel, ⟨_, rfl⟩, _, rfl⟩

/-- One handler and two, each kind of frame, GIHWSTKNEN clear and set. -/
theorem test_witness_HardwareStackRoundTrip_end : ∀ rest ∈ ([[], [3]] : List (List Nat)), ∀ f : HpeSlot,
    ∀ p ∈ ([(0xE003, false), (0xE023, true)] : List (Word × Bool)),
      let s := { edges .v3b with csr := { Csrs.reset with intsyscr := p.1 }, handlers := 14 :: rest, hpe := #v[f, f] }
      s.effPriv = .machine ∧ s.handlers = 14 :: rest ∧ rest.length ≤ 1 ∧ s.gihwstknen = p.2 := by
  intro rest hr f p hp
  refine ⟨rfl, rfl, ?_, (?_ : p.1.getLsbD 5 = p.2)⟩
  · clear hp; revert rest; decide
  · simp only [List.mem_cons, List.not_mem_nil, or_false] at hp
    rcases hp with rfl | rfl <;> decide

/-- A candidate that the threshold just lets through, and none at the threshold (R478). -/
theorem test_witness_ArbitrationAndAcceptance_candidate :
    (let s := { requesting .v3a with pfic := { (requesting .v3a).pfic with ithresdr := 0x10 } }
    s.bestOf s.requested none allNumbers = some 20) ∧
    (let s := { requesting .v3a with
      pfic := { (requesting .v3a).pfic with ithresdr := 0x10, prio := (Vector.replicate 256 0).set 20 0x10 } }
    s.bestOf s.requested none allNumbers = none) := by decide +kernel

/-- NMI with MIE clear, in its own handler's nested handler and not in its own; interrupt 20 with no handler running, and
over a handler of a lower priority on V3A, accepted and let through. -/
theorem test_witness_ArbitrationAndAcceptance_accept :
    (∀ h ∈ [[], [3, 2]], let s := { edges .v3c with pfic := { Pfic.reset with pend := 4 }, handlers := h }
    s.pending.getLsbD 2 = true ∧ s.handlers.head? ≠ some 2) ∧
    (let s := requesting .v3b
    s.acceptedInterrupt = some 20 ∧ (20 : Nat) ≠ 2 ∧ mstatusMie s.csr.mstatus = true ∧
      s.csr.intsyscr.getLsbD 5 = false ∧ s.pending.getLsbD 2 = false ∧
      s.bestOf s.requested none allNumbers = some 20 ∧ s.handlers = []) ∧
    (let s := { requesting .v3a with
      handlers := [21]
      pfic := { (requesting .v3a).pfic with prio := (Vector.replicate 256 0).set 21 0x80 } }
    s.acceptedInterrupt = some 20 ∧ s.handlers = 21 :: [] ∧ s.bestOf s.requested none allNumbers = some 20 ∧
      s.nestingEnabled = true ∧ s.level < s.maxLevel ∧ 12 ≤ 21 ∧ s.preempt (s.prioOf 20) < s.preempt (s.prioOf 21)) := by
  decide +kernel

/-- Every mode, in region 0 and region 3; the smallest NAPOT range and the largest. -/
theorem test_witness_PmpRegionMatching :
    (let c := { Csrs.reset with pmpcfg0 := 0x1F17080F, pmpaddr := #v[0x10000, 0x3FFFFFFF, 0x08000000, 0x3FFFFFFE] }
    c.pmpcfg0.extractLsb' 27 2 = 3 ∧ (c.pmpaddr[3]?.getD 0).toNat % 2 ^ 1 = 2 ^ 0 - 1 ∧ c.pmpcfg0.extractLsb' 19 2 = 2 ∧
      c.pmpcfg0.extractLsb' 11 2 = 1 ∧ c.pmpcfg0.extractLsb' 3 2 = 1) ∧
    (let c := { Csrs.reset with pmpcfg0 := 0x00000018, pmpaddr := #v[0x3FFFFFFF, 0, 0, 0] }
    c.pmpcfg0.extractLsb' 3 2 = 3 ∧ (c.pmpaddr[0]?.getD 0).toNat % 2 ^ 31 = 2 ^ 30 - 1 ∧
      c.pmpcfg0.extractLsb' 27 2 = 0) := by decide +kernel

/-- Models with and without a PMP; no region matches; a region of an unlocked, and of a locked entry decides (V52 lines
5, 11, 9, 10). -/
theorem test_witness_PmpCheckDecides :
    (edges .v3b).cfg.model ≠ .v3c ∧ userEdges.cfg.model = .v3c ∧
    (∀ i, i < 4 → pmpMatches v52 i 0x40000 = false) ∧
    (pmpMatches v52 1 0x20007008 = true ∧ (∀ j, j < 1 → pmpMatches v52 j 0x20007008 = false) ∧
      (v52.pmpcfg0.extractLsb' 8 8).getLsbD 7 = false) ∧
    (pmpMatches v52 0 0x20007004 = true ∧ (v52.pmpcfg0.extractLsb' 0 8).getLsbD 7 = true) := by decide +kernel

/-- A machine with an address in x11 and a value in x12. -/
def device (m : Model) (a v : Word) : State := start m 0x1000 [(11, a), (12, v)] []

/-- After reset no PMP region matches any address. -/
theorem test_no_region (a : Nat) : ∀ i ∈ [0, 1, 2, 3], pmpMatches Csrs.reset i a = false := by
  intro i hi
  simp only [List.mem_cons, List.not_mem_nil, or_false] at hi
  rcases hi with rfl | rfl | rfl | rfl <;> rfl

/-- On every model, every address can be accessed there, as far as triggers and the PMP go. -/
theorem test_device_accesses (m : Model) (a v : Word) :
    let s := device m a v
    s.readReg 11 + BitVec.ofInt 32 (0 : BitVec 12).toInt = a ∧ s.readReg 12 = v ∧ s.cfg.model = m ∧ LoadAllowed s a ∧
      StoreAllowed s a := by
  have h (k : Access) : pmpCheck Csrs.reset .machine k a.toNat = true := by
    have : pmpRegion Csrs.reset a.toNat = none :=
      List.find?_eq_none.2 fun i hi => by simp [test_no_region a.toNat i hi]
    unfold pmpCheck
    rw [this]; rfl
  have t (k : Access) (hk : triggerKind m 0x2BE00000 k = false) : (device m a v).firedTrigger k a = none := by
    have : (List.range (device m a v).channels).find? ((device m a v).triggerMatches k a) = none := by
      refine List.find?_eq_none.2 fun ch _ => ?_
      have e : (device m a v).csr.tdata1[ch]? = if ch < 4 then some 0x2BE00000 else none := by
        show (Vector.replicate 4 (0x2BE00000 : Word))[ch]? = _
        exact Vector.getElem?_replicate
      unfold State.triggerMatches
      rw [e]
      have : (device m a v).cfg.model = m := rfl
      split <;> simp_all
    unfold State.firedTrigger
    rw [this]; simp
  refine ⟨BitVec.add_zero a, rfl, rfl, ⟨t _ ?_, ?_⟩, t _ ?_, ?_⟩ <;> cases m <;>
    first | exact (if_pos rfl).trans (h _) | rfl

/-- The first and the last register of each group, number 5 of V3A among them, with and without the exception slot's. -/
theorem test_witness_PficStores_bits :
    (∀ m ∈ [Model.v3a, .v3b],
      ∀ b ∈ ([0xE000E100, 0xE000E180, 0xE000E280, 0xE000E200] : List Nat), ∀ x ∈ [(0 : Fin 8), 7],
      let s := device m (BitVec.ofNat 32 (b + 4 * x.val)) 0xFFFFFFF7
      let a := s.readReg 11 + BitVec.ofInt 32 (0 : BitVec 12).toInt
      StoreAllowed s a ∧ a.toNat = b + 4 * x.val) ∧
    (∀ x ∈ [(0 : Fin 8), 7], ((0xFFFFFFF7 : Word).zeroExtend 256 <<< (32 * x.val)).getLsbD 3 = false) ∧
      ((0xFFFFFFF7 : Word).zeroExtend 256 <<< (32 * 0)).getLsbD 5 = true ∧
      ((8 : Word).zeroExtend 256 <<< (32 * 0)).getLsbD 3 = true := by
  refine ⟨fun m _ b hb x hx => ?_, by decide +kernel, by decide +kernel, by decide +kernel⟩
  obtain ⟨h1, -, -, -, h2⟩ := test_device_accesses m (BitVec.ofNat 32 (b + 4 * x.val)) 0xFFFFFFF7
  refine ⟨h1.symm ▸ h2, (congrArg BitVec.toNat h1).trans ?_⟩
  clear h1 h2; revert b x; decide +kernel

/-- The first and the last number, number 5, at each alignment, and the threshold, on every model. -/
theorem test_witness_PficStores_priority : ∀ m ∈ [Model.v3a, .v3b, .v3c],
    ∀ a ∈ ([0xE000E400, 0xE000E405, 0xE000E4FE, 0xE000E4FC, 0xE000E4FF, 0xE000E040] : List Word),
      let s := device m a 0xFFFFFFFF
      s.readReg 11 + BitVec.ofInt 32 (0 : BitVec 12).toInt = a ∧ StoreAllowed s a :=
  fun m _ a _ => ⟨(test_device_accesses m a _).1, (test_device_accesses m a _).2.2.2.2⟩

/-- Addresses at the ends of each group of registers, on each kind of model, at level 0 and with every source wired. -/
theorem test_witness_PficLoads : ∀ m ∈ [Model.v3a, .v3c],
    ∀ a ∈ ([0xE000E000, 0xE000E01C, 0xE000E020, 0xE000E03C, 0xE000E300, 0xE000E31C, 0xE000E100, 0xE000E11C, 0xE000E180,
        0xE000E19C, 0xE000E200, 0xE000E21C, 0xE000E280, 0xE000E29C, 0xE000E040, 0xE000ED10, 0xE000E060, 0xE000E06C,
        0xE000E044, 0xE000E048, 0xE000E050, 0xE000E04C, 0xE000E400, 0xE000E4FF] : List Word), let s := device m a 0
      s.readReg 11 + BitVec.ofInt 32 (0 : BitVec 12).toInt = a ∧ LoadAllowed s a ∧ s.level ≤ 2 ∧
        s.cfg.irqWired = BitVec.allOnes 256 :=
  fun m _ a _ => ⟨(test_device_accesses m a _).1, (test_device_accesses m a _).2.2.2.1, Nat.zero_le _, rfl⟩

/-- The three keys with PFICRESET set and clear, no key; the control registers, and read-only ones, of each model. -/
theorem test_witness_PficControlWrites :
    (∀ v ∈ ([0xFA050003, 0xFA050040, 0xBCAF0024, 0xBCAF0028, 0xBCAF0050, 0xBEEF0040, 0xBEEF003F, 0xFFFF0043] : List Word),
      let s := device .v3a 0xE000E048 v
      s.readReg 11 + BitVec.ofInt 32 (0 : BitVec 12).toInt = 0xE000E048 ∧ StoreAllowed s 0xE000E048 ∧
        s.cfg.model = .v3a ∧ s.readReg 12 = v) ∧
    (∀ m ∈ [Model.v3a, .v3b, .v3c],
      ∀ a ∈ ([0xE000ED10, 0xE000E044, 0xE000E050, 0xE000E060, 0xE000E06C, 0xE000E000, 0xE000E31C] : List Word),
      let s := device m a 0x7FFFFFFF
      s.readReg 11 + BitVec.ofInt 32 (0 : BitVec 12).toInt = a ∧ StoreAllowed s a ∧ s.cfg.model = m ∧
        (s.readReg 12).getLsbD 31 = false) :=
  ⟨fun v _ => ⟨(test_device_accesses .v3a _ v).1, (test_device_accesses .v3a _ v).2.2.2.2, rfl, rfl⟩,
    fun m _ a _ => ⟨(test_device_accesses m a _).1, (test_device_accesses m a _).2.2.2.2, rfl,
      (by decide : (0x7FFFFFFF : Word).getLsbD 31 = false)⟩⟩

/-- Each register of the timer, at its lowest and its highest byte, on both kinds of model. -/
theorem test_witness_TimerRegisters : ∀ m ∈ [Model.v3a, .v3c],
    ∀ a ∈ ([0xE000F000, 0xE000F004, 0xE000F008, 0xE000F00A, 0xE000F00C, 0xE000F010, 0xE000F013] : List Word),
      let s := device m a 0x80000001
      s.readReg 11 + BitVec.ofInt 32 (0 : BitVec 12).toInt = a ∧ LoadAllowed s a ∧ StoreAllowed s a ∧ s.cfg.model = m :=
  fun m _ a _ => ⟨(test_device_accesses m a _).1, (test_device_accesses m a _).2.2.2.1,
    (test_device_accesses m a _).2.2.2.2, rfl⟩

/-- The smallest compare value and the largest. -/
theorem test_witness_TimerCountsToCompare : ∀ c ∈ ([1, 0xFFFFFFFF] : List Nat),
    let s := { edges .v3b with stk := { SysTick.reset with ctlr := 0xF, cmpl := BitVec.ofNat 32 c } }
    s.cfg.model ≠ .v3a ∧ s.dbg = .running ∧ s.sleep = .awake ∧ s.stk.ctlr = 0xF ∧ s.stk.sr = 0 ∧ s.stk.cntl = 0 ∧
      s.stk.cmpl ≠ 0 ∧ 0 < s.stk.cmpl.toNat := by decide +kernel

/-- Held by STE, by Deep Sleep, by debug mode with stoptime; V3A at its compare value, across both words; the modes of
V3B at the value that sets the flag, and at the reload. -/
theorem test_witness_TimerModes :
    (∀ s ∈ [edges .v3c, { edges .v3c with sleep := .asleep true false, stk := { SysTick.reset with ctlr := 1 } },
        { edges .v3c with dbg := .halted, csr := { Csrs.reset with dcsr := 0x200 }, stk := { SysTick.reset with ctlr := 1 } }],
      s.stk.ctlr.getLsbD 0 = false ∨ s.sleep = .asleep true false ∨
        (s.dbg ≠ .running ∧ s.csr.dcsr.getLsbD 9 = true)) ∧
    (let s := { edges .v3a with stk := { SysTick.reset with ctlr := 1, cntl := 0xFFFFFFFF, cmph := 1 } }
    s.stk.ctlr.getLsbD 0 = true ∧ s.sleep = .awake ∧ s.dbg = .running ∧ s.stk.div = 0 ∧ s.cfg.model = .v3a ∧
      (s.stk.cmph ++ s.stk.cmpl : BitVec 64) = (s.stk.cnth ++ s.stk.cntl : BitVec 64) + BitVec.ofNat 64 1) ∧
    (∀ p ∈ ([(0x1, 8, 9, 1), (0x15, 1, 9, 1), (0x1D, 1, 9, 1), (0x1D, 1, 9, 2)] : List (Word × Word × Word × Nat)),
      let s := { edges .v3b with stk := { SysTick.reset with ctlr := p.1, cntl := p.2.1, cmpl := p.2.2.1 } }
      s.stk.ctlr.getLsbD 0 = true ∧ s.sleep = .awake ∧ s.dbg = .running ∧ s.stk.div = 0 ∧ s.cfg.model ≠ .v3a ∧
        (let t := (s.hclkPeriods ((if s.stk.ctlr.getLsbD 2 then 1 else 8) * p.2.2.2)).stk
        (s.stk.ctlr.getLsbD 4 = false ∧ t.cntl = s.stk.cmpl) ∨
          (s.stk.ctlr.getLsbD 4 = true ∧ (t.cntl = 0 ∨ p.2.2.2 = s.stk.cntl.toNat + 1)))) := by decide +kernel

/-- A core that goes on sleeping (in Sleep, and with a halt request in Deep Sleep), and one that an event wakes. -/
theorem test_witness_SleepingCoreWaits :
    (∀ p ∈ [(edges .v3c, false), ({ edges .v3c with dm := { DebugModule.reset with haltreq := true } }, true)],
      let s := { p.1 with sleep := .asleep p.2 true }
      s.dbg = .running ∧ s.inputs = [] ∧ (s.dm.haltreq = false ∨ p.2 = true) ∧ s.pending &&& s.enabled = 0 ∧
        (true && s.eventLatch) = false) ∧
    (let s := { edges .v3c with sleep := .asleep true true, eventLatch := true }
    s.dbg = .running ∧ s.inputs = [] ∧ s.dm.haltreq = false ∧ s.pending &&& s.enabled = 0 ∧ s.eventLatch = true) := by
  decide +kernel

/-- A machine with a debug host attached and the module active. -/
def attached (d : DebugState) : State :=
  { edges .v3c with
    cfg := { Config.standard with debugger := true }
    dbg := d
    dm := { DebugModule.reset with dmactive := true } }

/-- A halt request on an awake core and in Sleep; with a trigger on the pc, with an ebreak there and with no ebreak. -/
theorem test_witness_HaltStepAndResume_halt :
    (∀ z ∈ [Sleep.awake, .asleep false true],
      let s := { edges .v3c with sleep := z, dm := { DebugModule.reset with haltreq := true } }
      s.dbg = .running ∧ s.inputs = [] ∧ s.dm.haltreq = true ∧ s.deepAsleep = false ∧
        s.firedTrigger .fetch s.pc = none ∧ s.csr.dcsr.getLsbD (if s.priv = .machine then 15 else 12) = false) ∧
    (let s := { armed .v3b 3 0x1044 0x1000 with dm := { DebugModule.reset with haltreq := true } }
    s.dbg = .running ∧ s.deepAsleep = false ∧ s.firedTrigger .fetch s.pc = some true) ∧
    (let s := ({ edges .v3c with csr := { Csrs.reset with dcsr := 0x40008000 } } : State).withFetchWord 16 0x9002
    s.firedTrigger .fetch s.pc = none ∧ s.csr.dcsr.getLsbD (if s.priv = .machine then 15 else 12) = true ∧
      CodeFetchable s 2 ∧ decode (codeBytes s) = .ok (.cEbreak, 2)) ∧
    (let s := ({ edges .v3c with csr := { Csrs.reset with dcsr := 0x40008000 } } : State).withFetchWord 32 0x30200073
    s.csr.dcsr.getLsbD (if s.priv = .machine then 15 else 12) = true ∧
      CodeFetchable s 4 ∧ decode (codeBytes s) = .ok (.mret, 4)) := by
  unfold CodeFetchable Fetchable
  refine ⟨by decide +kernel, by decide +kernel, ⟨by decide +kernel, by decide +kernel, by decide +kernel,
    ok_of_toOption (by decide +kernel)⟩, by decide +kernel, by decide +kernel, ok_of_toOption (by decide +kernel)⟩

/-- The step of one word at 0x1000 with some bits of dcsr set, and a trigger at 0x1004 or none. -/
def stepping (dcsr t1 : Word) : State :=
  ({ edges .v3b with
    csr := { Csrs.reset with
      dcsr := 0x40000000 ||| dcsr
      tdata1 := Csrs.reset.tdata1.set 0 (0x2BE00000 ||| t1)
      tdata2 := Csrs.reset.tdata2.set 0 0x1004 } } : State).withFetchWord 32 0xFFD58513

/-- No single step, a single step, and one with a trigger on the next pc; stepie 0; a halted core with a host. -/
theorem test_witness_HaltStepAndResume_step :
    (∀ p ∈ ([(0, 0, false), (4, 0, false), (4, 0x1044, true)] : List (Word × Word × Bool)),
      let s := stepping p.1 p.2.1
      Undisturbed s ∧ CodeFetchable s 4 ∧ decode (codeBytes s) = .ok (.addi 10 11 0xFFD, 4) ∧
        ∃ t, exec (.addi 10 11 0xFFD) s = .next t ∧ t.dbg = .running ∧ t.csr.dcsr.getLsbD 2 = decide (p.1 = 4) ∧
          decide (t.firedTrigger .fetch t.pc = some true) = p.2.2) ∧
    (let s := stepping 4 0
    s.csr.dcsr.getLsbD 2 = true ∧ s.csr.dcsr.getLsbD 11 = false) ∧
    (let s := attached .halted
    s.dbg = .halted ∧ s.inputs = [] ∧ s.cfg.debugger = true ∧ s.dm.dmactive = true) := by
  refine ⟨?_, by decide +kernel, by decide +kernel⟩
  unfold Undisturbed Quiet CodeFetchable Fetchable
  intro p hp
  simp only [List.mem_cons, List.not_mem_nil, or_false] at hp
  rcases hp with rfl | rfl | rfl <;>
    exact ⟨by decide +kernel, by decide +kernel, ok_of_toOption (by decide +kernel), _, rfl, by decide +kernel,
      by decide +kernel, by decide +kernel⟩

theorem test_witness_AbstractRegisterAccess : ∀ d ∈ [DebugState.halted, .running],
    let s := attached d
    s.cfg.debugger = true ∧ s.dm.dmactive = true ∧ s.dm.cmderr = 0 ∧ s.dbg = d := by decide +kernel

/-- The last byte, halfword and word of memory; data1's own word; nothing there; V3A; the last word of the program
buffer; an error. -/
theorem test_witness_AbstractMemoryAndProgramBuffer :
    (let s := { attached .halted with dm := { DebugModule.reset with dmactive := true, data1 := 0xFFFFFFFC } }
    MemoryCanonical s ∧ s.cfg.debugger = true ∧ s.dm.dmactive = true ∧ s.dm.cmderr = 0 ∧ s.dbg = .halted ∧
      s.cfg.model ≠ .v3a ∧ s.target s.dm.data1 = .memory ∧ s.dm.data1.toNat % 4 = 0 ∧ s.dm.data1.toNat % 2 = 0) ∧
    (let s := { attached .halted with dm := { DebugModule.reset with dmactive := true, data1 := 0xFFFFFFFF } }
    s.cfg.model ≠ .v3a ∧ s.target s.dm.data1 = .memory ∧ s.dm.data1.toNat % 4 ≠ 0) ∧
    (let s := { attached .halted with dm := { DebugModule.reset with dmactive := true, data1 := 0xE0000FFC }, cfg :=
      { Config.standard with debugger := true, dataAddr := 0xFF8 } }
    MemoryCanonical s ∧ s.cfg.debugger = true ∧ s.dm.dmactive = true ∧ s.dm.cmderr = 0 ∧ s.dbg = .halted ∧
      s.cfg.model ≠ .v3a ∧ s.target s.dm.data1 = .debugData ∧ s.dm.data1.toNat % 4 = 0 ∧
      s.dm.data1.toNat = 0xE0000004 + s.cfg.dataAddr.toNat) ∧
    (let s := { attached .halted with cfg := { Config.standard with debugger := true, memmap := [] } }
    s.cfg.model ≠ .v3a ∧ s.dm.data1.toNat % 4 = 0 ∧ s.target s.dm.data1 = .unmapped) ∧
    (let s := { attached .halted with cfg := { Config.standard with debugger := true, model := .v3a } }
    s.cfg.model = .v3a) ∧
    (let s := { attached .progbuf with
      pc := 28
      dm := { DebugModule.reset with dmactive := true, progbuf := (Vector.replicate 8 0).set 7 0x00100073 } }
    s.dbg = .progbuf ∧ s.inputs = [] ∧ s.pc.toNat < 32 ∧ s.dm.cmderr = 0 ∧
      decode ((s.dm.progbuf.toList.flatMap wordBytes).drop s.pc.toNat) = .ok (.ebreak, 4)) := by
  refine ⟨?_, ?_, ?_, ?_, ?_, ?_, ?_, ?_, ?_, ok_of_toOption ?_⟩ <;> decide +kernel

/-- V62 lines 9 and 10. -/
theorem test_witness_SystemResetByStore :
    (let s := device .v3c 0xE000ED10 0x80000000
    s.readReg 11 + BitVec.ofInt 32 (0 : BitVec 12).toInt = 0xE000ED10 ∧ StoreAllowed s 0xE000ED10 ∧
      s.cfg.model ≠ .v3a ∧ (s.readReg 12).getLsbD 31 = true) ∧
    (let s := device .v3a 0xE000E048 0xBEEF0080
    s.readReg 11 + BitVec.ofInt 32 (0 : BitVec 12).toInt = 0xE000E048 ∧ StoreAllowed s 0xE000E048 ∧
      s.cfg.model = .v3a ∧ s.readReg 12 = 0xBEEF0080) :=
  ⟨⟨(test_device_accesses .v3c _ _).1, (test_device_accesses .v3c _ _).2.2.2.2, by decide, by decide +kernel⟩,
    (test_device_accesses .v3a _ _).1, (test_device_accesses .v3a _ _).2.2.2.2, rfl, rfl⟩

/-- Some next state of a step. -/
theorem next_of_see {o : Machine.Outcome} (h : (see (fun _ => ()) o).isSome = true) : ∃ t, o = .next t := by
  cases o with
  | next t => exact ⟨t, rfl⟩
  | fault r => simp [see] at h
  | refused r => simp [see] at h

/-- The reset state meets the invariants, and a step from it answers a next state. -/
theorem test_witness_StepKeepsMemoryCanonical : MemoryCanonical (edges .v3c) ∧ ∃ t, step (edges .v3c) = .next t :=
  ⟨by decide +kernel, next_of_see (by decide +kernel)⟩

theorem test_witness_StepKeepsPcEven : PcEven (edges .v3c) ∧ ∃ t, step (edges .v3c) = .next t :=
  ⟨by decide +kernel, next_of_see (by decide +kernel)⟩

theorem test_witness_StepKeepsCsrFields :
    CsrFieldsLegal (edges .v3c).cfg.model (edges .v3c).csr ∧ (edges .v3c).level ≤ 4 ∧
      ∃ t, step (edges .v3c) = .next t :=
  ⟨test_reset_csrs_legal _, by decide +kernel, next_of_see (by decide +kernel)⟩

/-- The device registers after reset are legal, on every model. -/
theorem test_edges_devices_legal : ∀ m ∈ [Model.v3a, .v3b, .v3c], DeviceFieldsLegal (edges m) := by
  intro m _
  have hp : (edges m).pfic.prio = Vector.replicate 256 0 := rfl
  have prio (n : Nat) : (edges m).prioOf n = 0 := by
    unfold State.prioOf
    rw [hp]
    rcases Nat.lt_or_ge n 256 with h | h <;> simp [h]
  exact {
    enable := BitVec.zero_and
    priorities := fun n => by rw [prio n]; exact BitVec.zero_and
    threshold := BitVec.zero_and
    control := (by decide : (0 : Word) &&& 0xFFFFFFE1 = 0)
    pendingNumbers := (by decide +kernel : (0 : BitVec 256) &&& 0xACD3 = 0)
    activeNumbers := (by decide +kernel : (0 : BitVec 256) &&& 0xACD3 = 0)
    vtfBase := (by decide : (0 : Word) &&& 0x0FFFFFFF = 0)
    vtfTargets := fun _ k => by revert k; cases m <;> decide +kernel
    timerControl := BitVec.zero_and
    timerStatus := (by decide : (0 : Word) &&& 0x7FFFFFFE = 0) }

theorem test_witness_StepKeepsDeviceFields : DeviceFieldsLegal (edges .v3c) ∧ ∃ t, step (edges .v3c) = .next t :=
  ⟨test_edges_devices_legal _ (by decide), next_of_see (by decide +kernel)⟩

/-- A store through a user-mode region, and a write of mstatus through gintenr. -/
theorem test_witness_UserModeKeepsMachineCsrs :
    let s := { start .v3b 0x1000 [(5, 8)] [] with priv := .user, csr := { Csrs.reset with corecfgr := 0x21 } }
    s.dbg = .running ∧ s.priv = .user ∧ ∃ t, exec (.csrrw 0 0x800 5) s = .next t ∧ t.priv = .user ∧ t.dbg = .running :=
  ⟨rfl, rfl, _, rfl, by decide +kernel, by decide +kernel⟩

theorem test_witness_OnlyMretDropsPrivilege :
    let s := { edges .v3c with csr := { Csrs.reset with mepc := 0x800 } }
    ∃ t, exec .mret s = .next t ∧ s.priv = .machine ∧ t.priv = .user := ⟨_, rfl, by decide +kernel, by decide +kernel⟩


end Sys2Proof.Tests
end

/-! SUPPORT. The decoder gives well-formed instructions only (spec/30_encoding.md R170 to R193): the immediates it
assembles end in the zero bits their rules ask for, and it tests every operand value that is reserved. -/

namespace Sys2Proof

/-! ## The immediates the decoder assembles -/

theorem evenOffset_append {n : Nat} (x : BitVec n) : evenOffset (x ++ 0#1) = true := by
  rw [evenOffset, BitVec.getLsbD_append]; rfl

theorem multipleOf4_append {n : Nat} (x : BitVec n) : multipleOf4 (x ++ 0#2) = true := by
  rw [multipleOf4, BitVec.getLsbD_append, BitVec.getLsbD_append]; rfl

theorem multipleOf16_append {n : Nat} (x : BitVec n) : multipleOf16 (x ++ 0#4) = true := by
  rw [multipleOf16, BitVec.getLsbD_append, BitVec.getLsbD_append, BitVec.getLsbD_append, BitVec.getLsbD_append]; rfl

theorem fImmB_even (w : Word) : evenOffset (fImmB w) = true := evenOffset_append _
theorem fImmJ_even (w : Word) : evenOffset (fImmJ w) = true := evenOffset_append _
theorem pImmJ_even (p : Half) : evenOffset (pImmJ p) = true := evenOffset_append _
theorem pImmB_even (p : Half) : evenOffset (pImmB p) = true := evenOffset_append _
theorem pImmAddi4spn_scaled (p : Half) : multipleOf4 (pImmAddi4spn p) = true := multipleOf4_append _
theorem pImmLw_scaled (p : Half) : multipleOf4 (pImmLw p) = true := multipleOf4_append _
theorem pImmLwsp_scaled (p : Half) : multipleOf4 (pImmLwsp p) = true := multipleOf4_append _
theorem pImmSwsp_scaled (p : Half) : multipleOf4 (pImmSwsp p) = true := multipleOf4_append _
theorem pImmAddi16sp_scaled (p : Half) : multipleOf16 (pImmAddi16sp p) = true := multipleOf16_append _

/-! ## 32-bit words, by major opcode (R180) -/

theorem decodeLoad_wf {w : Word} {i : Instr} (h : decodeLoad w = some i) : i.wf = true := by
  unfold decodeLoad at h
  split at h <;> cases h <;> rfl

theorem decodeStore_wf {w : Word} {i : Instr} (h : decodeStore w = some i) : i.wf = true := by
  unfold decodeStore at h
  split at h <;> cases h <;> rfl

theorem decodeBranch_wf {w : Word} {i : Instr} (h : decodeBranch w = some i) : i.wf = true := by
  unfold decodeBranch at h
  split at h <;> cases h <;> exact fImmB_even w

theorem decodeMiscMem_wf {w : Word} {i : Instr} (h : decodeMiscMem w = some i) : i.wf = true := by
  unfold decodeMiscMem at h
  split at h <;> cases h <;> rfl

theorem decodeOpImm001_wf {w : Word} {i : Instr} (h : decodeOpImm001 w = some i) : i.wf = true := by
  unfold decodeOpImm001 at h
  split at h
  case h_2 => split at h <;> cases h <;> rfl
  all_goals cases h <;> rfl

theorem decodeOpImm101_wf {w : Word} {i : Instr} (h : decodeOpImm101 w = some i) : i.wf = true := by
  unfold decodeOpImm101 at h
  split at h
  case h_5 => split at h <;> cases h; rfl
  case h_6 => split at h <;> cases h; rfl
  all_goals cases h <;> rfl

theorem decodeOpImm_wf {w : Word} {i : Instr} (h : decodeOpImm w = some i) : i.wf = true := by
  unfold decodeOpImm at h
  split at h
  case h_2 => exact decodeOpImm001_wf h
  case h_6 => exact decodeOpImm101_wf h
  all_goals cases h; rfl

theorem decodeOpBase_wf (w : Word) : (decodeOpBase w).wf = true := by unfold decodeOpBase; split <;> rfl

theorem decodeOpMul_wf (w : Word) : (decodeOpMul w).wf = true := by unfold decodeOpMul; split <;> rfl

theorem decodeOpAlt_wf {w : Word} {i : Instr} (h : decodeOpAlt w = some i) : i.wf = true := by
  unfold decodeOpAlt at h
  split at h <;> cases h <;> rfl

theorem decodeOpMinMax_wf {w : Word} {i : Instr} (h : decodeOpMinMax w = some i) : i.wf = true := by
  unfold decodeOpMinMax at h
  split at h <;> cases h <;> rfl

theorem decodeOp_wf {w : Word} {i : Instr} (h : decodeOp w = some i) : i.wf = true := by
  unfold decodeOp at h
  split at h
  case h_1 => cases h; exact decodeOpBase_wf w
  case h_2 => exact decodeOpAlt_wf h
  case h_3 => cases h; exact decodeOpMul_wf w
  case h_4 => exact decodeOpMinMax_wf h
  case h_11 => cases h
  all_goals split at h <;> cases h <;> rfl

theorem decodeAmo_wf {w : Word} {i : Instr} (h : decodeAmo w = some i) : i.wf = true := by
  unfold decodeAmo at h
  split at h
  case h_2 => cases h
  case h_1 =>
    split at h
    case h_1 => split at h <;> cases h; rfl
    all_goals cases h <;> rfl

theorem decodeSystem0_wf {w : Word} {i : Instr} (h : decodeSystem0 w = some i) : i.wf = true := by
  unfold decodeSystem0 at h
  split at h
  case h_1 => split at h <;> cases h <;> rfl
  case h_2 => cases h

theorem decodeSystem_wf {w : Word} {i : Instr} (h : decodeSystem w = some i) : i.wf = true := by
  unfold decodeSystem at h
  split at h
  case h_1 => exact decodeSystem0_wf h
  all_goals cases h <;> rfl

theorem decodeRow_wf {w : Word} {i : Instr} (h : decodeRow w = some i) : i.wf = true := by
  unfold decodeRow at h
  split at h
  case h_1 => exact decodeLoad_wf h
  case h_2 => exact decodeMiscMem_wf h
  case h_3 => exact decodeOpImm_wf h
  case h_4 => cases h; rfl
  case h_5 => exact decodeStore_wf h
  case h_6 => exact decodeAmo_wf h
  case h_7 => exact decodeOp_wf h
  case h_8 => cases h; rfl
  case h_9 => exact decodeBranch_wf h
  case h_10 => split at h <;> cases h; rfl
  case h_11 => cases h; exact fImmJ_even w
  case h_12 => exact decodeSystem_wf h
  case h_13 => cases h

theorem decodeWord_wf {w : Word} {i : Instr} (h : decodeWord w = .ok i) : i.wf = true := by
  unfold decodeWord at h
  split at h
  · cases h; exact decodeRow_wf ‹_›
  · split at h <;> cases h

/-! ## 16-bit parcels, by quadrant (R182) -/

theorem decodeQ0_wf {p : Half} {i : Instr} (h : decodeQ0 p = .ok i) : i.wf = true := by
  unfold decodeQ0 at h
  split at h
  · split at h <;> cases h
    simpa [Instr.wf, pImmAddi4spn_scaled]
  · cases h; exact pImmLw_scaled p
  · cases h; exact pImmLw_scaled p
  · cases h

theorem decodeQ1Reg_wf {p : Half} {i : Instr} (h : decodeQ1Reg p = .ok i) : i.wf = true := by
  unfold decodeQ1Reg at h
  split at h <;> cases h <;> rfl

theorem decodeQ1Alu_wf {p : Half} {i : Instr} (h : decodeQ1Alu p = .ok i) : i.wf = true := by
  unfold decodeQ1Alu at h
  split at h
  · split at h <;> cases h
    rfl
  · split at h <;> cases h
    rfl
  · cases h; rfl
  · exact decodeQ1Reg_wf h

theorem decodeQ1Lui_wf {p : Half} {i : Instr} (h : decodeQ1Lui p = .ok i) : i.wf = true := by
  unfold decodeQ1Lui at h
  split at h <;> split at h <;> cases h
  · simpa [Instr.wf, pImmAddi16sp_scaled]
  · simpa [Instr.wf] using And.intro ‹¬pRd p = 2› ‹¬pImm6 p = 0›

theorem decodeQ1_wf {p : Half} {i : Instr} (h : decodeQ1 p = .ok i) : i.wf = true := by
  unfold decodeQ1 at h
  split at h
  · split at h <;> cases h
    · rfl
    · simpa [Instr.wf]
  · cases h; exact pImmJ_even p
  · cases h; rfl
  · exact decodeQ1Lui_wf h
  · exact decodeQ1Alu_wf h
  · cases h; exact pImmJ_even p
  · cases h; exact pImmB_even p
  · cases h; exact pImmB_even p

theorem decodeQ2Reg_wf {p : Half} {i : Instr} (h : decodeQ2Reg p = .ok i) : i.wf = true := by
  unfold decodeQ2Reg at h
  split at h <;> split at h
  · split at h <;> cases h
    simpa [Instr.wf]
  · cases h; simpa [Instr.wf]
  · split at h <;> cases h
    · rfl
    · simpa [Instr.wf]
  · cases h; simpa [Instr.wf]

theorem decodeQ2_wf {p : Half} {i : Instr} (h : decodeQ2 p = .ok i) : i.wf = true := by
  unfold decodeQ2 at h
  split at h
  · split at h <;> cases h
    rfl
  · split at h <;> cases h
    simpa [Instr.wf, pImmLwsp_scaled]
  · exact decodeQ2Reg_wf h
  · cases h; exact pImmSwsp_scaled p
  · cases h

theorem decodeHalf_wf {p : Half} {i : Instr} (h : decodeHalf p = .ok i) : i.wf = true := by
  unfold decodeHalf at h
  split at h
  · exact decodeQ0_wf h
  · exact decodeQ1_wf h
  · exact decodeQ2_wf h
  · cases h

/-- What the decoder accepts is well-formed. -/
theorem decode_wf {bytes : List Byte} {i : Instr} {n : Nat} (h : decode bytes = .ok (i, n)) : i.wf = true := by
  have of_map : ∀ {r : Except DecodeReject Instr} {len : Nat}, r.map (fun j => (j, len)) = .ok (i, n) → r = .ok i := by
    intro r len hr
    cases r with
    | ok j => cases hr; rfl
    | error e => cases hr
  unfold decode at h
  split at h
  · split at h
    · split at h
      · exact decodeWord_wf (of_map h)
      · cases h
    · exact decodeHalf_wf (of_map h)
  · cases h

end Sys2Proof

/-! SUPPORT. What an instruction can do to the mode and the CSRs, from `exec_effect` (spec/10_state.md R35, R37, R57). -/

namespace Sys2Proof.Machine

/-! ## Entering and leaving modes -/

/-- An instruction that was interrupted leaves machine mode in a trap, else the mode as it was (R436, R570). -/
theorem Interrupted.priv {s t : State} (h : Interrupted s t) : t.priv = .machine ∨ t.priv = s.priv := by
  rcases h with ⟨e, -, he⟩ | ⟨-, rfl⟩ | rfl
  · obtain ⟨-, a, s', -, rfl⟩ := State.takeException_cases he
    exact .inl rfl
  · exact .inr rfl
  · exact .inr rfl

/-- A write leaves machine mode in a system reset, else the mode as it was (R592). -/
theorem Written.priv {s t : State} {w : Width} {a v : Word} (h : Written s t w a v) :
    t.priv = .machine ∨ t.priv = s.priv := by
  rcases h with rfl | rfl | hd | hd
  · exact .inr rfl
  · exact .inl rfl
  · rw [hd.1]; exact .inr rfl
  · rw [hd]; exact .inr rfl

/-- A read and a write of a CSR leave the mode as it was. -/
theorem csrEffect_priv {s s1 s2 : State} {b : Bool} {c : CsrName} (h1 : SameOrDrawn s s1)
    (h2 : (b = false ∧ s2 = s1) ∨ ∃ v, b = true ∧ s1.csrWrite c v = .ok () s2) : s2.priv = s.priv := by
  have hp : s1.priv = s.priv := by rw [h1.eq]
  rcases h2 with ⟨-, rfl⟩ | ⟨v, -, hw⟩
  · exact hp
  · rw [State.csrWrite_frame hw]; exact hp

/-- Only `mret` leads from machine mode to user mode; every other instruction leads to machine mode or keeps the mode. -/
theorem Effect.priv {i : Instr} {s t : State} (h : Effect i s t) :
    i = .mret ∨ t.priv = .machine ∨ t.priv = s.priv := by
  cases h with
  | registers => exact .inr (.inr rfl)
  | stored _ _ _ _ _ _ _ _ _ hw => exact .inr hw.priv
  | interrupted hi => exact .inr hi.priv
  | csr _ _ _ _ _ _ h1 h2 => exact .inr (.inr (by simpa using csrEffect_priv h1 h2))
  | returned hi => exact .inl hi
  | slept => exact .inr (.inr rfl)
  | halted => exact .inr (.inr rfl)
  | bufferDone => exact .inr (.inr rfl)

/-- Settles O60: by the shapes a next state of an instruction can have. -/
theorem onlyMretDropsPrivilege : Obligations.OnlyMretDropsPrivilege := by
  intro i s t h hs ht
  rcases (exec_effect h).priv with hi | hp | hp
  · exact hi
  · rw [ht] at hp; cases hp
  · rw [ht, hs] at hp; cases hp

/-! ## What user mode reaches (R37, R276) -/

/-- The registers with a user-mode address are `gintenr` and `intsyscr` (R37, R38). -/
theorem csrName_user {m : Model} {a : BitVec 12} {c : CsrName} (h : csrName m a = some c)
    (ha : a.extractLsb' 8 2 = 0) : c = .gintenr ∨ c = .intsyscr := by
  have common : commonCsr a = none := by
    unfold commonCsr
    split
    case h_14 => rfl
    all_goals exact absurd ha (by decide)
  have vendor : ∀ d, vendorCsr a = some d → d = .gintenr ∨ d = .intsyscr := by
    intro d hd
    unfold vendorCsr at hd
    split at hd
    case h_4 => cases hd; exact .inl rfl
    case h_5 => cases hd; exact .inr rfl
    case h_8 => cases hd
    all_goals exact absurd ha (by decide)
  have pmp : pmpCsr a = none := by
    unfold pmpCsr
    split
    case h_6 => rfl
    all_goals exact absurd ha (by decide)
  unfold csrName at h
  rw [common] at h
  cases m with
  | v3a => cases h
  | v3b => exact vendor c h
  | v3c =>
    simp only [pmp] at h
    split at h
    · cases h; exact vendor _ ‹_›
    · cases h

/-- An access that user mode may make reaches one of these two (R276). -/
theorem csrAllowed_user {s : State} {a : BitVec 12} {b : Bool} {c : CsrName} (hp : s.effPriv = .user)
    (h : s.csrAllowed a b = some c) : c = .gintenr ∨ c = .intsyscr := by
  unfold State.csrAllowed at h
  split at h
  · cases h
  · split at h
    · rename_i hm
      cases h
      refine csrName_user ‹_› ?_
      simp [State.csrMayAccess, hp] at hm
      exact hm.1.1.2
    · cases h

/-- What user code may do to the CSRs: `intsyscr`, and MIE and MPIE of `mstatus` through `gintenr` (R57, R58). -/
def UserCsrs (c d : Csrs) : Prop :=
  d = { c with mstatus := d.mstatus, intsyscr := d.intsyscr } ∧ d.mstatus &&& 0xFFFFFF77 = c.mstatus &&& 0xFFFFFF77

theorem UserCsrs.refl (c : Csrs) : UserCsrs c c := ⟨rfl, rfl⟩

/-- A write of `gintenr` touches MIE and MPIE alone (R57). -/
theorem State.writeGintenr_user (s : State) (v : Word) : UserCsrs s.csr (s.writeGintenr v).csr := by
  unfold State.writeGintenr
  split
  · refine ⟨rfl, ?_⟩
    show (s.csr.mstatus &&& ~~~0x88 ||| v &&& 0x88) &&& 0xFFFFFF77 = _
    simp [BitVec.and_or_distrib_right, BitVec.and_assoc]
  · exact .refl _

theorem State.csrWrite_user {s t : State} {c : CsrName} {v : Word} (hc : c = .gintenr ∨ c = .intsyscr)
    (h : s.csrWrite c v = .ok () t) : UserCsrs s.csr t.csr := by
  rcases hc with rfl | rfl <;> cases h
  · exact s.writeGintenr_user v
  · exact ⟨rfl, rfl⟩

/-- An instruction that was interrupted has left user mode or entered debug mode. -/
theorem Interrupted.leavesUser {s t : State} (h : Interrupted s t) (hs : s.dbg = .running) :
    t.priv = .machine ∨ t.dbg = .halted := by
  rcases h with ⟨e, -, he⟩ | ⟨hb, -⟩ | rfl
  · obtain ⟨-, a, s', -, rfl⟩ := State.takeException_cases he
    exact .inl rfl
  · rw [hs] at hb; cases hb
  · exact .inr rfl

/-- A write resets the system or changes no CSR. -/
theorem Written.csr {s t : State} {w : Width} {a v : Word} (h : Written s t w a v) :
    t.priv = .machine ∨ t.csr = s.csr := by
  rcases h with rfl | rfl | hd | hd
  · exact .inr rfl
  · exact .inl rfl
  · rw [hd.1]; exact .inr rfl
  · rw [hd]; exact .inr rfl

/-- User code leaves user mode, or enters debug mode, or changes the CSRs only as it may. -/
theorem Effect.user {i : Instr} {s t : State} (h : Effect i s t) (hs : s.dbg = .running) (hp : s.priv = .user) :
    t.priv = .machine ∨ t.dbg = .halted ∨ UserCsrs s.csr t.csr := by
  have heff : s.effPriv = .user := by rw [State.effPriv, if_pos hs, hp]
  cases h with
  | registers => exact .inr (.inr (.refl _))
  | stored _ _ _ _ _ _ _ _ _ hw =>
    refine hw.csr.imp id fun hc => .inr ?_
    rw [hc]
    exact .refl _
  | interrupted hi => exact (hi.leavesUser hs).imp id .inl
  | csr a b c hc s1 s2 h1 h2 rd old =>
    have h0 : s1.csr = s.csr := by rw [h1.eq]
    refine .inr (.inr ?_)
    rw [State.advance_csr, State.writeReg_csr, ← h0]
    rcases h2 with ⟨-, rfl⟩ | ⟨v, -, hw⟩
    · exact .refl _
    · exact State.csrWrite_user (csrAllowed_user heff hc) hw
  | returned _ hm => rw [heff] at hm; cases hm
  | slept => exact .inr (.inr (.refl _))
  | halted => exact .inr (.inl rfl)
  | bufferDone hb => rw [hs] at hb; cases hb

/-- Settles O59: an instruction of user mode that stays there has made no trap, no reset, no return and no entry to debug
mode, and a CSR access it may make is to `gintenr` or `intsyscr`. -/
theorem userModeKeepsMachineCsrs : Obligations.UserModeKeepsMachineCsrs := by
  intro i s t hs hp h htp htd
  rcases (exec_effect h).user hs hp with hm | hh | hu
  · rw [htp] at hm; cases hm
  · rw [htd] at hh; cases hh
  · exact hu

end Sys2Proof.Machine

/-! SUPPORT. The invariants of the pc and of the CSR fields, each shown for the kinds of change that `Kept` lists
(spec/10_state.md R34, R39 to R60). -/

namespace Sys2Proof.Machine

/-- A property that the kinds of change of a step keep is kept by the step: the decoder gives well-formed instructions
only. -/
theorem Kept.step {P : State → Prop} (K : Kept P) {s t : State} (hs : Machine.step s = .next t) (h : P s) : P t :=
  K.step_keeps (fun _ _ _ => decode_wf) hs h

/-! ## Bit 0 of the pc and of mepc (R34, R46) -/

/-- `mepc` after a CSR write: as it was, or with bit 0 cleared (R46). -/
theorem State.csrWrite_mepc {s t : State} {c : CsrName} {v : Word} (h : s.csrWrite c v = .ok () t) :
    t.csr.mepc = s.csr.mepc ∨ t.csr.mepc = clearBit0 v := by
  cases c with
  | mepc => cases h; exact .inr rfl
  | mstatus | pmpcfg0 | dcsr | corecfgr =>
    simp only [State.csrWrite, State.writeMstatus, State.writePmpcfg, State.writeDcsr, State.writeCorecfgr] at h
    split at h <;> cases h
    exact .inl rfl
  | pmpaddr | tdata1 | tdata2 | gintenr =>
    cases h
    simp only [State.writePmpaddr, State.writeTdata1, State.writeTdata2, State.writeGintenr]
    split <;> exact .inl rfl
  | _ => cases h; exact .inl rfl

theorem pcEven_resetWith (c : Config) : PcEven (State.resetWith c) := 
  ⟨clearBit0_even _, (by decide : (0 : Word).getLsbD 0 = false)⟩

/-- Every kind of change a step is made of keeps the pc and `mepc` even. -/
theorem kept_pcEven : Kept PcEven where
  other h hc := by rw [PcEven, hc.pc, hc.csr]; exact h
  pc ha h := ⟨ha.elim (fun e => e.trans h.1) id, h.2⟩
  mem _ h := h
  device hd h := by rw [hd.1]; exact h
  timer _ _ h := h
  csr {s t c v} hw h := by
    have hpc : t.pc = s.pc := by rw [State.csrWrite_frame hw]
    refine ⟨hpc ▸ h.1, ?_⟩
    rcases State.csrWrite_mepc hw with e | e <;> rw [e]
    · exact h.2
    · exact clearBit0_even v
  trap _ ha _ h := ⟨ha, h.1⟩
  ret h := ⟨clearBit0_even _, h.2⟩
  endHandler _ h := by rw [PcEven, State.endHandler_pc, State.endHandler_csr]; exact h
  debug h := h
  reset {s} _ := pcEven_resetWith s.cfg

/-- Settles O56: every kind of change a step is made of keeps the pc and `mepc` even. -/
theorem stepKeepsPcEven : Obligations.StepKeepsPcEven :=
  fun _ _ h hs => kept_pcEven.step hs h

/-! ## Masks

A field's bits after a write are those of a value cut by a mask, beside what the write keeps. -/

section
variable {n : Nat} (old v k l m : BitVec n)

/-- A value cut to bits outside a mask has none inside. -/
theorem and_mask_zero (h : k &&& m = 0) : v &&& k &&& m = 0 := by rw [BitVec.and_assoc, h]; exact BitVec.and_zero

/-- A value cut to more bits than the mask's keeps the mask's. -/
theorem and_mask_keep (h : k &&& m = m) : v &&& k &&& m = v &&& m := by rw [BitVec.and_assoc, h]

/-- An update of the bits of `l` keeps those of a mask outside it. -/
theorem update_mask (hk : k &&& m = m) (hl : l &&& m = 0) : (old &&& k ||| v &&& l) &&& m = old &&& m := by
  rw [BitVec.and_or_distrib_right, and_mask_keep _ _ _ hk, and_mask_zero _ _ _ hl]
  exact BitVec.or_zero

/-- Bits set outside a mask leave it as it was. -/
theorem or_mask (h : k &&& m = 0) : (v ||| k) &&& m = v &&& m := by
  rw [BitVec.and_or_distrib_right, h]
  exact BitVec.or_zero

end

section
variable {n : Nat} (old v k l : BitVec n) (i len : Nat)

/-- A field inside a mask is that of the value cut. -/
theorem extract_mask_keep (h : k.extractLsb' i len = BitVec.allOnes len) :
    (v &&& k).extractLsb' i len = v.extractLsb' i len := by
  rw [BitVec.extractLsb'_and, h, BitVec.and_allOnes]

/-- A field outside a mask is 0. -/
theorem extract_mask_zero (h : k.extractLsb' i len = 0) : (v &&& k).extractLsb' i len = 0 := by
  rw [BitVec.extractLsb'_and, h]
  exact BitVec.and_zero

/-- A field inside the bits of an update is the new value's. -/
theorem extract_update_new (hk : k.extractLsb' i len = 0) (hl : l.extractLsb' i len = BitVec.allOnes len) :
    (old &&& k ||| v &&& l).extractLsb' i len = v.extractLsb' i len := by
  rw [BitVec.extractLsb'_or, extract_mask_zero _ _ _ _ hk, extract_mask_keep _ _ _ _ hl]
  exact BitVec.zero_or

/-- A field outside the bits of an update is the old value's. -/
theorem extract_update_old (hk : k.extractLsb' i len = BitVec.allOnes len) (hl : l.extractLsb' i len = 0) :
    (old &&& k ||| v &&& l).extractLsb' i len = old.extractLsb' i len := by
  rw [BitVec.extractLsb'_or, extract_mask_keep _ _ _ _ hk, extract_mask_zero _ _ _ _ hl]
  exact BitVec.or_zero

end

/-- A two-bit field that holds none of the reserved values holds a mode (R40, R54). -/
theorem mode_of_not_reserved {x : BitVec 2} : ¬(x = 1 ∨ x = 2) → x = 0 ∨ x = 3 := by revert x; decide

/-! ## The fields of the CSRs (R39 to R60) -/

theorem csrFieldsLegal_reset (m : Model) : CsrFieldsLegal m Csrs.reset where
  mstatusBits := rfl
  mppMode := .inl rfl
  mtvecBits := rfl
  mtvecMode _ := rfl
  pmpcfgBits := rfl
  tdata1Bits i := by revert i; decide
  dcsrBits := rfl
  prvMode := .inl rfl
  intsyscrBits := rfl
  corecfgrBits := rfl
  fetchMode := by decide
  inestcrBits := rfl

/-- MPP holds a mode (R40). -/
theorem mkMstatus_mode (a b : Bool) (p : Priv) :
    (mkMstatus a b p).extractLsb' 11 2 = 0 ∨ (mkMstatus a b p).extractLsb' 11 2 = 3 := by
  revert a b
  cases p <;> decide

section
variable (d : Word) (cause : BitVec 3) (p : Priv)

theorem dcsrOnEntry_eq : dcsrOnEntry d cause p =
    d &&& 0xFFFFFE3C#32 ||| cause.zeroExtend 32 <<< (6 : Nat) ||| (privCode p).zeroExtend 32 := rfl

/-- An entry to debug mode writes bits 8 to 6 (cause) and 1 to 0 (prv) of `dcsr` and no other (R54, R570). -/
theorem dcsrOnEntry_fixed {m : Word} (h : 0xFFFFFE3C#32 &&& m = m) : dcsrOnEntry d cause p &&& m = d &&& m := by
  have hc : cause.zeroExtend 32 <<< (6 : Nat) &&& ~~~0xFFFFFE3C#32 = cause.zeroExtend 32 <<< (6 : Nat) := by
    revert cause; decide
  have hp : (privCode p).zeroExtend 32 &&& ~~~0xFFFFFE3C#32 = (privCode p).zeroExtend 32 := by cases p <;> rfl
  have out : ~~~0xFFFFFE3C#32 &&& m = 0 := by rw [← h, ← BitVec.and_assoc]; simp
  rw [dcsrOnEntry_eq, ← hc, ← hp, or_mask _ _ _ (and_mask_zero _ _ _ out), or_mask _ _ _ (and_mask_zero _ _ _ out)]
  exact and_mask_keep _ _ _ h

theorem dcsrOnEntry_prv : (dcsrOnEntry d cause p).extractLsb' 0 2 = privCode p := by
  have hc : (cause.zeroExtend 32 <<< (6 : Nat)).extractLsb' 0 2 = 0#2 := by revert cause; decide
  have hp : ((privCode p).zeroExtend 32).extractLsb' 0 2 = privCode p := by cases p <;> rfl
  rw [dcsrOnEntry_eq, BitVec.extractLsb'_or, BitVec.extractLsb'_or, hc, hp, extract_mask_zero _ _ _ _ rfl]
  exact BitVec.zero_or

theorem dcsrOnEntry_cause : (dcsrOnEntry d cause p).extractLsb' 6 3 = cause := by
  have hc : (cause.zeroExtend 32 <<< (6 : Nat)).extractLsb' 6 3 = cause := by revert cause; decide
  have hp : ((privCode p).zeroExtend 32).extractLsb' 6 3 = 0#3 := by cases p <;> rfl
  rw [dcsrOnEntry_eq, BitVec.extractLsb'_or, BitVec.extractLsb'_or, hc, hp, extract_mask_zero _ _ _ _ rfl]
  simp

end

section
variable {m : Model} {c : Csrs} (L : CsrFieldsLegal m c)
include L

/-- The values that `mkMstatus` builds are legal (R40). -/
theorem CsrFieldsLegal.setMstatus (a b : Bool) (p : Priv) : CsrFieldsLegal m { c with mstatus := mkMstatus a b p } :=
  { L with
    mstatusBits := mkMstatus_reserved a b p
    mppMode := mkMstatus_mode a b p }

/-- A trap entry writes registers that hold any value, builds `mstatus`, and may set NEST_OV (R60, R430). -/
theorem CsrFieldsLegal.enterTrap (epc cause tval : Word) (x y : Bool) (p : Priv) (b : Prop) [Decidable b] :
    CsrFieldsLegal m { c with
      mepc := epc
      mcause := cause
      mtval := tval
      mstatus := mkMstatus x y p
      inestcr := if b then c.inestcr ||| 0x40000000 else c.inestcr } :=
  { L with
    mstatusBits := mkMstatus_reserved x y p
    mppMode := mkMstatus_mode x y p
    inestcrBits := by
      show (if b then _ else _) &&& _ = _
      split
      · exact (or_mask _ _ _ rfl).trans L.inestcrBits
      · exact L.inestcrBits }

/-- A return clears GIHWSTKNEN, which may hold either value (R58, R441). -/
theorem CsrFieldsLegal.clearGihwstknen : CsrFieldsLegal m { c with intsyscr := c.intsyscr &&& ~~~0x20 } :=
  { L with intsyscrBits := (and_mask_keep _ _ _ rfl).trans L.intsyscrBits }

/-- An entry to debug mode leaves a cause and a mode in `dcsr` (R54, R570). -/
theorem CsrFieldsLegal.enterDebug (pc : Word) (cause : BitVec 3) (p : Priv) :
    CsrFieldsLegal m { c with dpc := pc, dcsr := dcsrOnEntry c.dcsr cause p } :=
  { L with
    dcsrBits := (dcsrOnEntry_fixed _ _ _ rfl).trans L.dcsrBits
    prvMode := by rw [dcsrOnEntry_prv]; cases p <;> decide }

end

/-! ## The fields after a CSR write (R277) -/

theorem pmpFieldAfter_legal {b : Bool} {old v : Byte} (h : old &&& 0x60 = 0) : pmpFieldAfter b old v &&& 0x60 = 0 := by
  unfold pmpFieldAfter
  split
  · exact h
  · exact and_mask_zero _ _ _ rfl

/-- Four bytes without bits 6 and 5 make a legal `pmpcfg0` (R141). -/
theorem pmpcfg_append {a b c d : Byte} (ha : a &&& 0x60 = 0) (hb : b &&& 0x60 = 0) (hc : c &&& 0x60 = 0)
    (hd : d &&& 0x60 = 0) : (a ++ b ++ c ++ d : Word) &&& 0x60606060 = 0 := by
  have parts : (0x60606060 : Word) = (0x60#8 ++ 0x60#8 ++ 0x60#8 ++ 0x60#8 : Word) := rfl
  rw [parts, BitVec.and_append, BitVec.and_append, BitVec.and_append]
  have zero : ∀ x : Byte, x &&& 0x60#8 = x &&& 0x60 := fun _ => rfl
  rw [zero, zero, zero, zero, ha, hb, hc, hd]
  rfl

/-- Each field of a legal `pmpcfg0` has its reserved bits 0 (R141). -/
theorem pmpCfgByte_legal {c : Csrs} (h : c.pmpcfg0 &&& 0x60606060 = 0) : ∀ i, i < 4 → pmpCfgByte c i &&& 0x60 = 0 := by
  intro i hi
  have mask : (0x60 : Byte) = (0x60606060 : Word).extractLsb' (8 * i) 8 := by interval_cases i <;> rfl
  rw [pmpCfgByte, mask, ← BitVec.extractLsb'_and, h]
  exact BitVec.extractLsb'_zero

section
variable {s t : State} {v : Word} (L : CsrFieldsLegal s.cfg.model s.csr)
include L

theorem writeMstatus_legal (h : s.writeMstatus v = .ok () t) : CsrFieldsLegal s.cfg.model t.csr := by
  unfold State.writeMstatus at h
  split at h
  · cases h
  · rename_i hv
    cases h
    have keep : (v &&& 0x1888).extractLsb' 11 2 = v.extractLsb' 11 2 := extract_mask_keep _ _ _ _ rfl
    exact { L with
      mstatusBits := and_mask_zero _ _ _ rfl
      mppMode := by rw [State.setCsr_csr, keep]; exact mode_of_not_reserved hv }

theorem writeMtvec_legal : CsrFieldsLegal s.cfg.model (s.writeMtvec v).csr :=
  { L with
    mtvecBits := by
      show v &&& _ &&& _ = _
      split <;> exact and_mask_zero _ _ _ rfl
    mtvecMode := fun hm => by
      show (v &&& _).getLsbD 1 = false
      rw [if_pos hm]
      simp }

theorem writePmpcfg_legal (h : s.writePmpcfg v = .ok () t) : CsrFieldsLegal s.cfg.model t.csr := by
  unfold State.writePmpcfg at h
  simp only at h
  split at h
  · cases h
  · cases h
    have field := fun i hi => @pmpFieldAfter_legal s.cfg.pmpLockClearable _ (v.extractLsb' (8 * i) 8)
      (pmpCfgByte_legal L.pmpcfgBits i hi)
    exact { L with
      pmpcfgBits := pmpcfg_append (field 3 (by decide)) (field 2 (by decide)) (field 1 (by decide))
        (field 0 (by decide)) }

theorem writePmpaddr_legal (i : Nat) : CsrFieldsLegal s.cfg.model (s.writePmpaddr i v).csr := by
  unfold State.writePmpaddr
  split
  · exact L
  · exact { L with }

theorem writeTdata1_legal : CsrFieldsLegal s.cfg.model (s.writeTdata1 v).csr := by
  unfold State.writeTdata1
  split
  · refine { L with tdata1Bits := fun i => ?_ }
    rw [State.setCsr_csr, Fin.getElem_fin, Vector.getElem_setIfInBounds]
    split
    · rw [BitVec.and_or_distrib_right, and_mask_zero _ _ _ rfl]
      rfl
    · exact L.tdata1Bits i
  · exact L

theorem writeTdata2_legal : CsrFieldsLegal s.cfg.model (s.writeTdata2 v).csr := by
  unfold State.writeTdata2
  split
  · exact { L with }
  · exact L

theorem writeDcsr_legal (h : s.writeDcsr v = .ok () t) : CsrFieldsLegal s.cfg.model t.csr := by
  unfold State.writeDcsr at h
  split at h
  · cases h
  · rename_i hv
    cases h
    have keep : (s.csr.dcsr &&& 0xFFFF65F8 ||| v &&& 0x9A07).extractLsb' 0 2 = v.extractLsb' 0 2 :=
      extract_update_new _ _ _ _ _ _ rfl rfl
    exact { L with
      dcsrBits := (update_mask _ _ _ _ _ rfl rfl).trans L.dcsrBits
      prvMode := by rw [State.setCsr_csr, keep]; exact mode_of_not_reserved hv }

theorem writeGintenr_legal : CsrFieldsLegal s.cfg.model (s.writeGintenr v).csr := by
  unfold State.writeGintenr
  split
  · have keep : (s.csr.mstatus &&& ~~~0x88 ||| v &&& 0x88).extractLsb' 11 2 = s.csr.mstatus.extractLsb' 11 2 :=
      extract_update_old _ _ _ _ _ _ rfl rfl
    exact { L with
      mstatusBits := (update_mask _ _ _ _ _ rfl rfl).trans L.mstatusBits
      mppMode := by rw [State.setCsr_csr, keep]; exact L.mppMode }
  · exact L

theorem writeIntsyscr_legal : CsrFieldsLegal s.cfg.model (s.writeIntsyscr v).csr :=
  { L with
    intsyscrBits := by
      show (s.csr.intsyscr &&& ~~~intsyscrMask s.cfg ||| v &&& intsyscrMask s.cfg ||| v &&& 0x20) &&& _ = _
      rw [BitVec.and_or_distrib_right, and_mask_zero v 0x20 _ rfl]
      refine BitVec.or_zero.trans ((update_mask _ _ _ _ _ ?_ ?_).trans L.intsyscrBits) <;>
        (unfold intsyscrMask; split <;> rfl) }

theorem writeCorecfgr_legal (h : s.writeCorecfgr v = .ok () t) : CsrFieldsLegal s.cfg.model t.csr := by
  unfold State.writeCorecfgr at h
  split at h
  · cases h
  · rename_i hv
    cases h
    have keep : (v &&& 0xAF).extractLsb' 0 2 = v.extractLsb' 0 2 := extract_mask_keep _ _ _ _ rfl
    exact { L with
      corecfgrBits := and_mask_zero _ _ _ rfl
      fetchMode := by rw [State.setCsr_csr, keep]; exact hv }

theorem writeInestcr_legal : CsrFieldsLegal s.cfg.model (s.writeInestcr v).csr :=
  { L with
    inestcrBits := by
      show (s.csr.inestcr &&& 0x40000000 &&& ~~~v ||| if v.extractLsb' 0 2 = 0 then 0 else 1) &&& _ = _
      rw [BitVec.and_comm _ (~~~v), ← BitVec.and_assoc, or_mask _ _ _ (by split <;> rfl), and_mask_zero _ _ _ rfl] }

theorem csrWrite_legal {n : CsrName} (h : s.csrWrite n v = .ok () t) : CsrFieldsLegal s.cfg.model t.csr := by
  cases n with
  | mstatus => exact writeMstatus_legal L h
  | pmpcfg0 => exact writePmpcfg_legal L h
  | dcsr => exact writeDcsr_legal L h
  | corecfgr => exact writeCorecfgr_legal L h
  | mtvec => cases h; exact writeMtvec_legal L
  | pmpaddr i => cases h; exact writePmpaddr_legal L i
  | tdata1 => cases h; exact writeTdata1_legal L
  | tdata2 => cases h; exact writeTdata2_legal L
  | gintenr => cases h; exact writeGintenr_legal L
  | intsyscr => cases h; exact writeIntsyscr_legal L
  | inestcr => cases h; exact writeInestcr_legal L
  | _ => cases h; exact { L with }

end

/-- What the steps keep of the CSRs: legal fields, and a level of at most 4 (R444, D22). -/
def CsrsLegal (s : State) : Prop := CsrFieldsLegal s.cfg.model s.csr ∧ s.level ≤ 4

/-- Every kind of change a step is made of keeps the fields of the CSRs legal. -/
theorem kept_csrsLegal : Kept CsrsLegal where
  other h hc := by rw [CsrsLegal, State.level, hc.cfg, hc.csr, hc.handlers]; exact h
  pc _ h := h
  mem _ h := h
  device hd h := by rw [hd.1]; exact h
  timer _ _ h := h
  csr {s t c v} hw h := by
    obtain ⟨hl, hn⟩ := h
    have hf := State.csrWrite_frame hw
    have hcfg : t.cfg = s.cfg := by rw [hf]
    have hh : t.handlers = s.handlers := by rw [hf]
    rw [CsrsLegal, State.level, hcfg, hh]
    exact ⟨csrWrite_legal hl hw, hn⟩
  trap hl _ _ h := by
    rw [CsrsLegal, State.enterTrap_csr, State.enterTrap_cfg]
    exact ⟨h.1.enterTrap _ _ _ _ _ _ _, hl⟩
  ret h := ⟨h.1.setMstatus _ _ _, h.2⟩
  endHandler {s slot rest} hh h := by
    rw [CsrsLegal, State.endHandler_csr, State.endHandler_cfg]
    refine ⟨h.1.clearGihwstknen, ?_⟩
    have hn := h.2
    rw [State.level, hh, List.length_cons] at hn
    exact Nat.le_of_succ_le hn
  debug h := ⟨h.1.enterDebug _ _ _, h.2⟩
  reset {s} _ := ⟨csrFieldsLegal_reset s.cfg.model, Nat.zero_le 4⟩

/-- Settles O57: every kind of change a step is made of keeps the fields of the CSRs legal and the level at most 4. -/
theorem stepKeepsCsrFields : Obligations.StepKeepsCsrFields :=
  fun _ _ hl hn hs => kept_csrsLegal.step hs ⟨hl, hn⟩

end Sys2Proof.Machine

/-! SUPPORT. The CSR instructions: what the access check lets through, one rule for reads (`csrrs rd, csr, x0`) and one
for writes (`csrrw x0, csr, rs1`), and with them the values and fields of every register (spec/10_state.md R37 to R61,
R275 to R283). -/

namespace Sys2Proof.Machine

/-! ## Completed instructions (R12) -/

/-- An instruction that retires a register completes. -/
theorem Completes.of_retire {i : Instr} {s : State} {rd : Reg} {v len : Word} (h : exec i s = s.retire rd v len) :
    Completes i s rd v (s.pc + len) := by
  refine ⟨_, h, fun r => s.readReg_writeReg rd r v, ?_, fun _ => ?_, ?_⟩
  · simp
  · simp
  · rw [OnlyRegsPc, State.writeReg_eq]; rfl

/-! The hardware stack's switches depend on the model, PFIC_CFGR and `intsyscr` alone (R441, R446). -/

section
variable {s t : State} (hm : t.cfg = s.cfg) (hp : t.pfic.cfgr = s.pfic.cfgr) (hi : t.csr.intsyscr = s.csr.intsyscr)
include hm hi

theorem State.gihwstknen_congr : t.gihwstknen = s.gihwstknen := by unfold State.gihwstknen; rw [hm, hi]

include hp

theorem State.hpeSwitch_congr : t.hpeSwitch = s.hpeSwitch := by unfold State.hpeSwitch; rw [hm, hp, hi]

theorem State.hpeEnabled_congr : t.hpeEnabled = s.hpeEnabled := by
  unfold State.hpeEnabled; rw [State.gihwstknen_congr hm hi, State.hpeSwitch_congr hm hp hi]

end

/-- An instruction that leaves new CSRs, and the hardware stack as the change of the enable settles it. -/
theorem LeavesCsrs.of_settleHpe {i : Instr} {s : State} {c : Csrs}
    (h : exec i s = .next (((s.setCsr c).settleHpe s.hpeEnabled).advance 4)) : LeavesCsrs i s c := by
  refine ⟨_, h, rfl, rfl, fun _ => rfl, fun _ => rfl, fun k => ?_, rfl⟩
  show (if (s.setCsr c).hpeEnabled = s.hpeEnabled then s.hpe else unbalance s.hpe s.level)[k] =
    if (s.setCsr c).hpeEnabled ≠ s.hpeEnabled ∧ k.val < s.level then _ else _
  by_cases he : (s.setCsr c).hpeEnabled = s.hpeEnabled
  · simp only [he, if_true, ne_eq, not_true, false_and, if_false]
  · simp only [he, if_false, ne_eq, not_false_eq_true, true_and]
    exact unbalance_getElem _ _ _ k.isLt

/-- An instruction that leaves new CSRs with the old `intsyscr` leaves the hardware stack alone. -/
theorem LeavesCsrs.of_setCsr {i : Instr} {s : State} {c : Csrs} (hi : c.intsyscr = s.csr.intsyscr)
    (h : exec i s = .next ((s.setCsr c).advance 4)) : LeavesCsrs i s c := by
  refine .of_settleHpe ?_
  have same : (s.setCsr c).hpeEnabled = s.hpeEnabled := State.hpeEnabled_congr rfl rfl hi
  rw [State.settleHpe_same same, h]

/-! ## The access check (R276) -/

theorem State.csrAllowed_of {s : State} {a : BitVec 12} {n : CsrName} {b : Bool}
    (hn : csrName s.cfg.model a = some n) (hm : s.csrMayAccess n a b = true) : s.csrAllowed a b = some n := by
  simp only [State.csrAllowed, hn, hm, if_true]

/-- The registers of V3B and V3C. -/
theorem csrName_vendor {m : Model} (hm : m ≠ .v3a) {a : BitVec 12} {n : CsrName} (hc : commonCsr a = none)
    (hv : vendorCsr a = some n) : csrName m a = some n := by
  cases m with
  | v3a => exact absurd rfl hm
  | v3b => simp only [csrName, hc, hv]
  | v3c => simp only [csrName, hc, hv]

/-- A register that exists and may be read with the privilege of `s` (R276). -/
structure Reachable (s : State) (a : BitVec 12) (n : CsrName) : Prop where
  name : csrName s.cfg.model a = some n
  machine : s.effPriv = .machine
  debug : debugOnly n = true → s.dbg ≠ .running

/-- Machine privilege may read every register that is not debug mode's own, and write where the address is not read-only. -/
theorem Reachable.allowed {s : State} {a : BitVec 12} {n : CsrName} (h : Reachable s a n) {b : Bool}
    (hw : b = true → a.extractLsb' 10 2 ≠ 3) : s.csrAllowed a b = some n := by
  refine State.csrAllowed_of h.name ?_
  have hd := h.debug
  cases b <;> cases hn : debugOnly n <;> simp_all [State.csrMayAccess, h.machine]

/-! ## Reads and writes (R275, R278, R279) -/

/-- The common operation where the access is allowed: the read if it reads, the write if it writes, the register. -/
theorem State.csrInstr_allowed {s : State} {op : CsrOp} {a : BitVec 12} {z : Bool} {n : CsrName} (rd : Reg)
    (src bits : Word) (h : s.csrAllowed a (decide (op = .write) || !z) = some n) : s.csrInstr op rd a src z bits =
    s.run (if !(decide (op = .write) && decide (rd = 0)) then s.csrValue n else .ok 0 s) fun old s1 =>
      s.run (if decide (op = .write) || !z then s1.csrWrite n (csrNew op old src) else .ok () s1) fun _ s2 =>
        s2.retire rd old 4 := by
  unfold State.csrInstr
  dsimp only
  rw [h]

/-- `csrrs rd, csr, x0` reads. -/
theorem exec_csrrs_x0 {s s1 : State} {a : BitVec 12} {n : CsrName} {v : Word} (rd : Reg) (h : Reachable s a n)
    (hv : s.csrValue n = .ok v s1) : exec (.csrrs rd a 0) s = s1.retire rd v 4 := by
  refine (State.csrInstr_allowed (op := .set) rd _ _ (h.allowed fun hw => absurd hw (by decide))).trans ?_
  simp [hv, State.run]

/-- `csrrw x0, csr, rs1` writes and does not read. -/
theorem exec_csrrw_x0 {s : State} {a : BitVec 12} {n : CsrName} (rs1 : Reg) (h : Reachable s a n)
    (ha : a.extractLsb' 10 2 ≠ 3) :
    exec (.csrrw 0 a rs1) s = s.run (s.csrWrite n (s.readReg rs1)) fun _ s2 => .next (s2.advance 4) :=
  State.csrInstr_allowed (op := .write) 0 _ _ (h.allowed fun _ => ha)

/-- The read of a register that holds its value. -/
theorem Reachable.read {s : State} {a : BitVec 12} {n : CsrName} {v : Word} (h : Reachable s a n)
    (hv : s.csrValue n = .ok v s) (rd : Reg) : Completes (.csrrs rd a 0) s rd v (s.pc + 4) :=
  .of_retire (exec_csrrs_x0 rd h hv)

/-- The read of a register of which some bits are free. -/
theorem Reachable.readPartly {s : State} {a : BitVec 12} {n : CsrName} {v : Word} {fixed : Word → Prop}
    (h : Reachable s a n) (hv : s.csrValue n = .ok v s.drawn) (hf : fixed v) (rd : Reg) :
    ReadsPartly (.csrrs rd a 0) s rd fixed := by
  refine ⟨_, v, exec_csrrs_x0 rd h hv, fun r => s.drawn.readReg_writeReg rd r v, hf, ?_, fun _ => ?_, ?_⟩
  · simp
  · simp
  · rw [State.writeReg_eq]; rfl

/-- A write that changes the CSRs, but not `intsyscr`. -/
theorem Reachable.write {s : State} {a : BitVec 12} {n : CsrName} {rs1 : Reg} {c : Csrs} (h : Reachable s a n)
    (ha : a.extractLsb' 10 2 ≠ 3) (hi : c.intsyscr = s.csr.intsyscr)
    (hw : s.csrWrite n (s.readReg rs1) = .ok () (s.setCsr c)) : LeavesCsrs (.csrrw 0 a rs1) s c := by
  refine .of_setCsr hi ?_
  rw [exec_csrrw_x0 rs1 h ha, hw]
  rfl

/-! ## mscratch (R43, R275, R278 to R283) -/

/-- The common operation on `mscratch`: the old value to `rd`, the new one to the register. -/
theorem State.csrInstr_mscratch {s : State} {op : CsrOp} {rd : Reg} {src bits : Word} {z : Bool}
    (hp : s.effPriv = .machine) (hz : op ≠ .write → z = true → src = 0) :
    s.csrInstr op rd 0x340 src z bits = .next (((s.setCsr
      { s.csr with mscratch := csrNew op s.csr.mscratch src }).writeReg rd s.csr.mscratch).advance 4) := by
  have ha : s.csrAllowed 0x340 (decide (op = .write) || !z) = some .mscratch :=
    Reachable.allowed ⟨rfl, hp, fun h => absurd h (by decide)⟩ fun _ => by decide
  rw [State.csrInstr_allowed rd src bits ha]
  by_cases hop : op = .write
  · subst hop
    by_cases hrd : rd = 0
    · subst hrd; rfl
    · simp only [hrd]; rfl
  · have same : z = true → csrNew op s.csr.mscratch src = s.csr.mscratch := by
      intro h
      rw [hz hop h]
      cases op with
      | write => exact absurd rfl hop
      | set => exact BitVec.or_zero
      | clear => exact BitVec.and_allOnes
    cases z with
    | false => simp only [hop]; rfl
    | true => rw [same rfl]; simp only [hop]; rfl

/-- An instruction that is the common operation on `mscratch`. -/
theorem ExchangesMscratch.of_csrInstr {i : Instr} {s : State} {op : CsrOp} {rd : Reg} {src bits : Word} {z : Bool}
    (hp : s.effPriv = .machine) (hz : op ≠ .write → z = true → src = 0)
    (h : exec i s = s.csrInstr op rd 0x340 src z bits) :
    ExchangesMscratch i s rd (csrNew op s.csr.mscratch src) := by
  refine ⟨_, h.trans (State.csrInstr_mscratch hp hz), fun r => State.readReg_writeReg _ rd r _, ?_, ?_, fun _ => ?_, ?_⟩
  · simp
  · simp
  · simp
  · rw [State.writeReg_eq]; rfl

/-- Settles O20: each of the six is the common operation; a zero source field means a zero source. -/
theorem csrInstructionsExchange : Obligations.CsrInstructionsExchange := by
  intro s rd rs1 u hp
  have reg : ∀ op : CsrOp, op ≠ .write → decide (rs1 = 0) = true → s.readReg rs1 = 0 := by
    intro _ _ h
    rw [of_decide_eq_true h, State.readReg_zero]
  have imm : ∀ op : CsrOp, op ≠ .write → decide (u = 0) = true → zext32 u = 0 := by
    intro _ _ h
    rw [of_decide_eq_true h]; rfl
  exact ⟨.of_csrInstr (op := .write) hp (reg _) rfl, .of_csrInstr (op := .set) hp (reg _) rfl,
    .of_csrInstr (op := .clear) hp (reg _) rfl, .of_csrInstr (op := .write) hp (imm _) rfl,
    .of_csrInstr (op := .set) hp (imm _) rfl, .of_csrInstr (op := .clear) hp (imm _) rfl⟩

end Sys2Proof.Machine

/-! SUPPORT. The values and the fields of the CSRs, register by register, from the rules for reads and writes
(spec/10_state.md R39 to R60, R141 to R153, R577). -/

namespace Sys2Proof.Machine

section
variable {s : State} (hp : s.effPriv = .machine)
include hp

/-- Machine privilege reaches the registers every model has, but those of debug mode. -/
theorem reachable_common {a : BitVec 12} {n : CsrName} (hc : commonCsr a = some n) (hd : debugOnly n = false) :
    Reachable s a n where
  name := by simp only [csrName, hc]
  machine := hp
  debug h := by rw [hd] at h; cases h

/-- Machine privilege reaches the registers of V3B and V3C. -/
theorem reachable_vendor (hm : s.cfg.model ≠ .v3a) {a : BitVec 12} {n : CsrName} (hc : commonCsr a = none)
    (hv : vendorCsr a = some n) (hd : debugOnly n = false) : Reachable s a n where
  name := csrName_vendor hm hc hv
  machine := hp
  debug h := by rw [hd] at h; cases h

/-- Machine privilege reaches the PMP registers of V3C. -/
theorem reachable_pmp (hm : s.cfg.model = .v3c) {a : BitVec 12} {n : CsrName} (hc : commonCsr a = none)
    (hv : vendorCsr a = none) (hn : pmpCsr a = some n) (hd : debugOnly n = false) : Reachable s a n where
  name := by simp only [hm, csrName, hc, hv, hn]
  machine := hp
  debug h := by rw [hd] at h; cases h

end

/-- Debug mode reaches its own registers (R37). -/
theorem reachable_debug {s : State} (h : s.dbg ≠ .running) {a : BitVec 12} {n : CsrName} (hc : commonCsr a = some n) :
    Reachable s a n where
  name := by simp only [csrName, hc]
  machine := by rw [State.effPriv, if_neg h]
  debug _ := h

/-! ## Values (R40 to R48, R57 to R60) -/

/-- Bits that two summands do not share add without a carry: the fixed part of `misa` and the extensions (R41). -/
theorem misaValue_sum {c : Config} (h : c.model ≠ .v3a) : misaValue c = 0x40000000 + c.misaExt.zeroExtend 32 := by
  have disjoint : (0x40000000 : Word) &&& c.misaExt.zeroExtend 32 = 0 := by
    rw [show (0x40000000 : Word) = BitVec.twoPow 32 30 from rfl, BitVec.twoPow_and]
    simp
  rw [misaValue, if_neg h, BitVec.add_eq_or_of_and_eq_zero _ _ disjoint]

theorem marchidValue_eq {m : Model} (h : m ≠ .v3a) :
    marchidValue m = if m = .v3b then 0xDC68D862 else 0xDC68D863 := by
  cases m with
  | v3a => exact absurd rfl h
  | v3b => rfl
  | v3c => rfl

/-- The same of the fields of `mimpid` (R45). -/
theorem mimpidValue_sum {c : Config} (h : c.model ≠ .v3a) : mimpidValue c =
    0xDC688000 + 16 * c.mimpidMinor.zeroExtend 32 + c.mimpidMajor.zeroExtend 32 := by
  rw [mimpidValue, if_neg h]
  generalize c.mimpidMinor = x
  generalize c.mimpidMajor = y
  revert x y
  decide

/-- The thermometer code of a level is one less than a power of two (R60, R64). -/
theorem nestSta_eq {n : Nat} (h : n ≤ 4) : nestSta n <<< 8 = 256 * BitVec.ofNat 32 (2 ^ n - 1) := by
  interval_cases n <;> rfl

/-- `inestcr` as it reads: the nesting level's code in bits that the register does not hold (R60). -/
theorem inestcr_sum {s : State} (hl : CsrFieldsLegal s.cfg.model s.csr) (hn : s.level ≤ 4) :
    s.csr.inestcr ||| nestSta s.level <<< 8 = s.csr.inestcr + 256 * BitVec.ofNat 32 (2 ^ s.level - 1) := by
  have disjoint : s.csr.inestcr &&& nestSta s.level <<< 8 = 0 := by
    have held : s.csr.inestcr &&& 0xF00#32 = 0 := by
      rw [show 0xF00#32 = 0xBFFFFFFE &&& 0xF00#32 from rfl, ← BitVec.and_assoc, hl.inestcrBits]
      rfl
    have code : nestSta s.level <<< 8 = 0xF00#32 &&& nestSta s.level <<< 8 := by
      unfold nestSta
      split <;> rfl
    rw [code, ← BitVec.and_assoc, held]
    exact BitVec.zero_and
  rw [← nestSta_eq hn, BitVec.add_eq_or_of_and_eq_zero _ _ disjoint]

/-- Settles O21: each of the registers is reachable, and its value is the one the rule for reads gives. -/
theorem csrReadValues : Obligations.CsrReadValues := by
  intro s rd hp
  have common {a : BitVec 12} {n : CsrName} {v : Word} (hc : commonCsr a = some n) (hd : debugOnly n = false)
      (hv : s.csrValue n = .ok v s) : Completes (.csrrs rd a 0) s rd v (s.pc + 4) :=
    (reachable_common hp hc hd).read hv rd
  refine ⟨?_, fun hm => ?_, fun hm => ⟨?_, fun hl hn => ?_⟩⟩
  · simp only [List.forall_mem_cons, List.not_mem_nil, false_imp_iff, implies_true, and_true]
    exact ⟨common rfl rfl rfl, common rfl rfl rfl, common rfl rfl rfl, common rfl rfl rfl, common rfl rfl rfl⟩
  · simp only [List.forall_mem_cons, List.not_mem_nil, false_imp_iff, implies_true, and_true]
    refine ⟨common (n := .misa) rfl rfl ?_, common (n := .marchid) rfl rfl ?_, common (n := .mimpid) rfl rfl ?_⟩
    · simp only [State.csrValue, misaValue, hm, if_true]
    · simp only [State.csrValue, marchidValue, hm]
    · simp only [State.csrValue, mimpidValue, hm, if_true]
  · have vendor {a : BitVec 12} {n : CsrName} {v : Word} (hc : commonCsr a = none) (hn : vendorCsr a = some n)
        (hd : debugOnly n = false) (hv : s.csrValue n = .ok v s) : Completes (.csrrs rd a 0) s rd v (s.pc + 4) :=
      (reachable_vendor hp hm hc hn hd).read hv rd
    simp only [List.forall_mem_cons, List.not_mem_nil, false_imp_iff, implies_true, and_true]
    refine ⟨common (n := .misa) rfl rfl ?_, common (n := .marchid) rfl rfl ?_, common (n := .mimpid) rfl rfl ?_,
      vendor rfl rfl rfl rfl, vendor rfl rfl rfl rfl, vendor rfl rfl rfl rfl⟩
    · rw [← misaValue_sum hm]; rfl
    · rw [State.csrValue, marchidValue_eq hm]
    · rw [← mimpidValue_sum hm]; rfl
  · rw [← inestcr_sum hl hn]
    exact (reachable_vendor hp hm rfl rfl rfl).read (n := .inestcr) rfl rd

/-! ## Fields (R39 to R60, R277) -/

/-- NEST_OV after a write of `inestcr`: cleared by a 1 (R60). -/
theorem nestOv_write (x v : Word) :
    x &&& 0x40000000 &&& ~~~v = if x.getLsbD 30 && !v.getLsbD 30 then 0x40000000 else 0 := by
  rw [show (0x40000000 : Word) = BitVec.twoPow 32 30 from rfl, BitVec.and_twoPow]
  cases x.getLsbD 30 with
  | false => exact BitVec.zero_and
  | true => rw [if_pos rfl, BitVec.twoPow_and, BitVec.getLsbD_not]; rfl

/-- Settles O22: each write leaves the CSRs as the register's rule says; only that of `intsyscr` may switch the hardware
stack. -/
theorem csrWriteFields : Obligations.CsrWriteFields := by
  intro s rs1 hp
  have common {a : BitVec 12} {n : CsrName} (hc : commonCsr a = some n) (hd : debugOnly n = false) : Reachable s a n :=
    reachable_common hp hc hd
  refine ⟨fun hv => ?_, (common rfl rfl).write (n := .mtvec) (by decide) rfl rfl,
    (common rfl rfl).write (n := .mepc) (by decide) rfl rfl, (common rfl rfl).write (n := .mcause) (by decide) rfl rfl,
    (common rfl rfl).write (n := .mtval) (by decide) rfl rfl, (common rfl rfl).write (n := .misa) (by decide) rfl rfl,
    fun hm => ?_⟩
  · refine (common rfl rfl).write (n := .mstatus) (by decide) rfl ?_
    have legal : ¬((s.readReg rs1).extractLsb' 11 2 = 1 ∨ (s.readReg rs1).extractLsb' 11 2 = 2) := by
      rcases hv with hv | hv <;> rw [hv] <;> decide
    rw [State.csrWrite, State.writeMstatus, if_neg legal]
  · have vendor {a : BitVec 12} {n : CsrName} (hc : commonCsr a = none) (hn : vendorCsr a = some n)
        (hd : debugOnly n = false) : Reachable s a n := reachable_vendor hp hm hc hn hd
    refine ⟨?_, fun hv => ?_, ?_, ?_⟩
    · refine .of_settleHpe ?_
      rw [exec_csrrw_x0 (n := .intsyscr) rs1 (vendor rfl rfl rfl) (by decide)]
      rfl
    · refine (vendor rfl rfl rfl).write (n := .corecfgr) (by decide) rfl ?_
      rw [State.csrWrite, State.writeCorecfgr, if_neg hv]
    · rw [← nestOv_write]
      exact (vendor rfl rfl rfl).write (n := .inestcr) (by decide) rfl rfl
    · refine (vendor rfl rfl rfl).write (n := .gintenr) (by decide) ?_ ?_
      · split <;> rfl
      · rw [State.csrWrite, State.writeGintenr]
        split <;> rfl

end Sys2Proof.Machine

/-! SUPPORT. The PMP, trigger and debug registers (spec/10_state.md R49 to R56, R141, R151, R153, R577). -/

namespace Sys2Proof.Machine

/-! ## pmpcfg0, field by field (R141, R151, R153) -/

/-- A locked field keeps its value, unless the write clears a lock that can be cleared (R151, D19). -/
theorem pmpFieldAfter_held {b : Bool} {old v : Byte} (h : old.getLsbD 7 = true ∧ (b = false ∨ v.getLsbD 7 = true)) :
    pmpFieldAfter b old v = old := by
  obtain ⟨hl, hb | hv⟩ := h
  · rw [pmpFieldAfter, hl, hb]; rfl
  · rw [pmpFieldAfter, hl, hv, Bool.not_true, Bool.and_false]; rfl

/-- Every other field takes what is written but its reserved bits. -/
theorem pmpFieldAfter_free {b : Bool} {old v : Byte} (h : ¬(old.getLsbD 7 = true ∧ (b = false ∨ v.getLsbD 7 = true))) :
    pmpFieldAfter b old v = v &&& 0x9F := by
  rw [pmpFieldAfter, if_neg]
  intro hk
  rw [Bool.and_eq_true, Bool.not_eq_true', Bool.and_eq_false_iff, Bool.not_eq_false'] at hk
  exact h hk

/-- A word is its four bytes. -/
theorem word_eq_bytes (w : Word) :
    w = w.extractLsb' 24 8 ++ w.extractLsb' 16 8 ++ w.extractLsb' 8 8 ++ w.extractLsb' 0 8 := by
  rw [BitVec.extractLsb'_append_extractLsb'_eq_extractLsb' (by rfl),
    BitVec.extractLsb'_append_extractLsb'_eq_extractLsb' (by rfl),
    BitVec.extractLsb'_append_extractLsb'_eq_extractLsb' (by rfl), BitVec.extractLsb'_eq_self]

/-- Some field holds the reserved combination R = 0, W = 1 (R153). -/
theorem pmpFieldReserved_any (f : Nat → Byte) :
    (pmpFieldReserved (f 0) || pmpFieldReserved (f 1) || pmpFieldReserved (f 2) || pmpFieldReserved (f 3)) = true ↔
      ∃ i, i < 4 ∧ (f i).getLsbD 0 = false ∧ (f i).getLsbD 1 = true := by
  have one : ∀ b : Byte, pmpFieldReserved b = true ↔ b.getLsbD 0 = false ∧ b.getLsbD 1 = true := by
    intro b
    rw [pmpFieldReserved, Bool.and_eq_true, Bool.not_eq_true', and_comm]
  simp only [Bool.or_eq_true, one]
  constructor
  · rintro (((h | h) | h) | h)
    · exact ⟨0, by decide, h⟩
    · exact ⟨1, by decide, h⟩
    · exact ⟨2, by decide, h⟩
    · exact ⟨3, by decide, h⟩
  · rintro ⟨i, hi, h⟩
    interval_cases i
    · exact .inl (.inl (.inl h))
    · exact .inl (.inl (.inr h))
    · exact .inl (.inr h)
    · exact .inr h

/-- A write of `pmpcfg0` leaves the word whose fields are those after the write, and is refused where one of them is
reserved. -/
theorem State.writePmpcfg_eq {s : State} {v w : Word} (h : ∀ i, i < 4 → w.extractLsb' (8 * i) 8 =
      pmpFieldAfter s.cfg.pmpLockClearable (pmpCfgByte s.csr i) (v.extractLsb' (8 * i) 8)) :
    ((∃ i, i < 4 ∧ (w.extractLsb' (8 * i) 8).getLsbD 0 = false ∧ (w.extractLsb' (8 * i) 8).getLsbD 1 = true) →
      s.writePmpcfg v = .refuse (.reservedValue 0x3A0)) ∧
    (¬(∃ i, i < 4 ∧ (w.extractLsb' (8 * i) 8).getLsbD 0 = false ∧ (w.extractLsb' (8 * i) 8).getLsbD 1 = true) →
      s.writePmpcfg v = .ok () (s.setCsr { s.csr with pmpcfg0 := w })) := by
  rw [← pmpFieldReserved_any fun i => w.extractLsb' (8 * i) 8]
  unfold State.writePmpcfg
  simp only [← h 0 (by decide), ← h 1 (by decide), ← h 2 (by decide), ← h 3 (by decide)]
  refine ⟨fun hr => if_pos hr, fun hr => (if_neg hr).trans ?_⟩
  rw [← word_eq_bytes w]

/-- A write in bounds, under the name the statements use. -/
theorem setIfInBounds_eq_set {α : Type} {n i : Nat} (xs : Vector α n) (h : i < n) {x : α} :
    xs.setIfInBounds i x = xs.set i x := by
  ext j hj
  rw [Vector.getElem_setIfInBounds, Vector.getElem_set]

/-! ## pmpaddr (R50, R142, R151) -/

theorem pmpaddrLocked_iff (c : Csrs) (i : Nat) : pmpaddrLocked c i = true ↔
    (pmpCfgByte c i).getLsbD 7 = true ∨
      (i < 3 ∧ (pmpCfgByte c (i + 1)).getLsbD 7 = true ∧ (pmpCfgByte c (i + 1)).extractLsb' 3 2 = 1) := by
  simp only [pmpaddrLocked, pmpMode, Bool.or_eq_true, Bool.and_eq_true, decide_eq_true_eq, beq_iff_eq, and_assoc]

/-- Settles O23: a write leaves the word whose fields the lock rules give, which is the only word with these fields. -/
theorem pmpRegisters : Obligations.PmpRegisters := by
  intro s rd rs1 hp hm v c field held fixed after reserved
  have pmpcfg0 : Reachable s 0x3A0 .pmpcfg0 := reachable_pmp hp hm rfl rfl rfl rfl
  have fields : ∀ w, after w → ∀ i, i < 4 → w.extractLsb' (8 * i) 8 =
      pmpFieldAfter s.cfg.pmpLockClearable (pmpCfgByte s.csr i) (v.extractLsb' (8 * i) 8) := by
    intro w hw i hi
    by_cases hh : held i
    · exact ((hw i hi).1 hh).trans (pmpFieldAfter_held hh).symm
    · exact ((hw i hi).2 hh).trans (pmpFieldAfter_free hh).symm
  refine ⟨pmpcfg0.read rfl rd, fun w hw hr => ?_, fun w hw hr => ?_, fun i => ?_⟩
  · exact pmpcfg0.write (by decide) rfl ((State.writePmpcfg_eq (fields w hw)).2 hr)
  · rw [exec_csrrw_x0 rs1 pmpcfg0 (by decide)]
    have refused : s.csrWrite .pmpcfg0 v = _ := (State.writePmpcfg_eq (fields w hw)).1 hr
    rw [refused]
    rfl
  · have name : commonCsr (BitVec.ofNat 12 (0x3B0 + i.val)) = none ∧ vendorCsr (BitVec.ofNat 12 (0x3B0 + i.val)) = none ∧
        pmpCsr (BitVec.ofNat 12 (0x3B0 + i.val)) = some (.pmpaddr i.val) ∧
        (BitVec.ofNat 12 (0x3B0 + i.val)).extractLsb' 10 2 ≠ 3 := by
      revert i; decide
    obtain ⟨hc, hv, hn, ha⟩ := name
    have pmpaddr : Reachable s (BitVec.ofNat 12 (0x3B0 + i.val)) (.pmpaddr i.val) := reachable_pmp hp hm hc hv hn rfl
    refine ⟨pmpaddr.readPartly rfl ?_ rd, fun hf => ?_, fun hf => ?_⟩
    · rw [BitVec.extractLsb'_append_eq_right, Vector.getElem?_eq_getElem i.isLt]
      rfl
    · refine pmpaddr.write ha rfl ?_
      rw [State.csrWrite, State.writePmpaddr, if_pos ((pmpaddrLocked_iff _ _).mpr hf)]
      rfl
    · refine pmpaddr.write ha rfl ?_
      rw [State.csrWrite, State.writePmpaddr, if_neg (mt (pmpaddrLocked_iff _ _).mp hf)]
      rw [setIfInBounds_eq_set _ i.isLt]

/-! ## Triggers (R51 to R53, R577) -/

/-- The selected channel exists: a part has at most four (R577). -/
theorem State.channelExists_iff {s : State} (hm : s.cfg.model ≠ .v3a) :
    s.channelExists = true ↔ s.csr.tselect.toNat < s.cfg.triggerChannels := by
  have h4 : s.csr.tselect.toNat < 4 := s.csr.tselect.isLt
  rw [State.channelExists, decide_eq_true_eq, State.channels, if_neg hm]
  exact lt_min_iff.trans (and_iff_left h4)

/-- Settles O24: each register is reachable where the statement says, and its rules give the value and what is stored. -/
theorem triggerAndDebugRegisters : Obligations.TriggerAndDebugRegisters := by
  intro s rd rs1 v c there
  refine ⟨fun hd => ?_, fun hm hp => ?_⟩
  · have debug {a : BitVec 12} {n : CsrName} (hc : commonCsr a = some n) : Reachable s a n := reachable_debug hd hc
    refine ⟨?_, fun hv => ?_, (debug rfl).write (n := .dpc) (by decide) rfl rfl,
      (debug rfl).write (n := .dscratch0) (by decide) rfl rfl, (debug rfl).write (n := .dscratch1) (by decide) rfl rfl⟩
    · simp only [List.forall_mem_cons, List.not_mem_nil, false_imp_iff, implies_true, and_true]
      exact ⟨(debug rfl).read (n := .dcsr) rfl rd, (debug rfl).read (n := .dpc) rfl rd,
        (debug rfl).read (n := .dscratch0) rfl rd, (debug rfl).read (n := .dscratch1) rfl rd⟩
    · refine (debug rfl).write (n := .dcsr) (by decide) rfl ?_
      have legal : ¬(v.extractLsb' 0 2 = 1 ∨ v.extractLsb' 0 2 = 2) := by
        rcases hv with hv | hv <;> rw [hv] <;> decide
      rw [State.csrWrite, State.writeDcsr, if_neg legal]
  · have vendor {a : BitVec 12} {n : CsrName} (hc : commonCsr a = none) (hn : vendorCsr a = some n)
        (hd : debugOnly n = false) : Reachable s a n := reachable_vendor hp hm hc hn hd
    have tdata1 : Reachable s 0x7A1 .tdata1 := vendor rfl rfl rfl
    have tdata2 : Reachable s 0x7A2 .tdata2 := vendor rfl rfl rfl
    refine ⟨(vendor rfl rfl rfl).read (n := .tselect) rfl rd, (vendor rfl rfl rfl).write (n := .tselect) (by decide) rfl rfl,
      fun ht => ?_, fun ht => ?_, fun ht hd => ?_, fun ht => ?_⟩
    · have he := (State.channelExists_iff hm).mpr ht
      exact ⟨tdata1.read (by rw [State.csrValue, State.channelValue, if_pos he]) rd,
        tdata2.read (by rw [State.csrValue, State.channelValue, if_pos he]) rd⟩
    · have he := mt (State.channelExists_iff hm).mp ht
      simp only [List.forall_mem_cons, List.not_mem_nil, false_imp_iff, implies_true, and_true]
      exact ⟨tdata1.readPartly (by rw [State.csrValue, State.channelValue, if_neg he]) trivial rd,
        tdata2.readPartly (by rw [State.csrValue, State.channelValue, if_neg he]) trivial rd⟩
    · have he := (State.channelExists_iff hm).mpr ht
      refine ⟨tdata1.write (by decide) rfl ?_, tdata2.write (by decide) rfl ?_⟩
      · rw [State.csrWrite, State.writeTdata1, if_pos ⟨hd, he⟩, BitVec.or_comm,
          setIfInBounds_eq_set _ s.csr.tselect.isLt]
      · rw [State.csrWrite, State.writeTdata2, if_pos ⟨hd, he⟩,
          setIfInBounds_eq_set _ s.csr.tselect.isLt]
    · have hn : ¬(s.dbg ≠ .running ∧ s.channelExists = true) := by
        rintro ⟨hd, he⟩
        exact ht.elim hd fun h => h ((State.channelExists_iff hm).mp he)
      refine ⟨tdata1.write (by decide) rfl ?_, tdata2.write (by decide) rfl ?_⟩
      · rw [State.csrWrite, State.writeTdata1, if_neg hn]; rfl
      · rw [State.csrWrite, State.writeTdata2, if_neg hn]; rfl

end Sys2Proof.Machine

/-! SUPPORT. Taking a trap where one can be entered, and the accesses that raise one (spec/60_exceptions.md R430 to R436,
spec/10_state.md R276). -/

namespace Sys2Proof.Machine

/-! ## Trap entry (R430, R431) -/

/-- The table gives a slot the address that the rule names (R431). -/
theorem EntryOf.tableEntry {s : State} {slot : Nat} {entry : Word} (h : EntryOf s slot entry) :
    s.tableEntry slot = .ok (entry, s) := by
  rcases h with ⟨hv, rfl⟩ | ⟨hv, ht, hp, rfl⟩
  · rw [State.tableEntry, hv]; rfl
  · have permitted : ¬(s.cfg.model = .v3c ∧ pmpCheck s.csr .machine .load (s.vectorAddr slot).toNat = false) := by
      rintro ⟨hm, hd⟩
      rw [hp hm] at hd
      cases hd
    rw [State.tableEntry, if_pos hv, State.vectorRead]
    simp only [ht, if_neg permitted]
    rfl

/-- The entry sequence leaves what R430 says. -/
theorem State.enterTrap_entered (s : State) (cause tval : Word) (slot : Nat) (entry : Word) :
    TrapEntered s (s.enterTrap cause tval slot entry) cause tval slot entry := by
  have bit : ∀ n, n < 256 → (BitVec.twoPow 256 slot).getLsbD n = decide (n = slot) := by
    intro n hn
    rw [BitVec.getLsbD_twoPow, Bool.and_comm]
    by_cases h : slot = n
    · simp [h, hn]
    · simp [h, Ne.symm h]
  refine ⟨rfl, rfl, rfl, rfl, rfl, ?_, ?_, ?_, mkMstatus_reserved _ _ _, ?_, rfl, rfl, fun n hn => ?_, fun n hn => ?_,
    fun r => State.readReg_congr (State.enterTrap_regs _ _ _ _ _) r, fun a => by rw [State.enterTrap_mem], ?_⟩
  · rw [State.enterTrap_mstatus, mkMstatus_mpp]
  · rw [State.enterTrap_mstatus, mkMstatus_mpie]
  · rw [State.enterTrap_mstatus, mkMstatus_mie]
  · rw [State.enterTrap_csr]
  · rw [State.enterTrap_pfic, BitVec.getLsbD_or, bit n hn]
  · simp only [State.enterTrap_pfic, BitVec.getLsbD_and, BitVec.getLsbD_not, bit n hn, hn, decide_true, Bool.true_and]
  · rw [State.enterTrap_eq]

/-- Where its trap can be entered, an exception is taken. -/
theorem State.takeException_enters {s : State} {e : Exc} {entry : Word} (h : CanTrap s (excSlot s.cfg.model e) entry) :
    s.takeException e = .next (s.enterTrap (excCode e) (excTval e) (excSlot s.cfg.model e) entry) := by
  obtain ⟨hl, he⟩ := h
  rw [State.takeException, he.tableEntry]
  exact if_neg (Nat.not_le.mpr hl)

/-- Outside debug mode raising an exception is taking it. -/
theorem State.raiseExc_enters {s : State} {e : Exc} {entry : Word} (hs : s.dbg = .running)
    (h : CanTrap s (excSlot s.cfg.model e) entry) :
    s.raiseExc e = .next (s.enterTrap (excCode e) (excTval e) (excSlot s.cfg.model e) entry) := by
  rw [State.raiseExc, if_neg (by rw [hs]; decide), State.takeException_enters h]

/-- Outside debug mode an instruction that raises an exception traps. -/
theorem Traps.of_raiseExc {i : Instr} {s : State} {e : Exc} (hs : s.dbg = .running) (h : exec i s = s.raiseExc e) :
    Traps i s e :=
  fun entry hc => ⟨_, h.trans (State.raiseExc_enters hs hc), s.enterTrap_entered _ _ _ entry⟩

/-! ## Forbidden CSR accesses (R37, R61, R276) -/

/-- The registers of debug mode are those at 0x7B0 to 0x7B3. -/
theorem debugOnly_of_address {m : Model} {a : BitVec 12} {n : CsrName} (h : csrName m a = some n)
    (ha : a.extractLsb' 2 10 = 0x1EC) : debugOnly n = true := by
  have parts : a = 0x1EC#10 ++ a.extractLsb' 0 2 := by
    rw [show 0x1EC#10 = a.extractLsb' 2 10 from ha.symm, BitVec.extractLsb'_append_extractLsb'_eq_extractLsb' (by rfl),
      BitVec.extractLsb'_eq_self]
  have common : ∀ low : BitVec 2, (commonCsr (0x1EC#10 ++ low)).map debugOnly = some true := by decide
  obtain ⟨d, hc, hd⟩ := Option.map_eq_some_iff.mp (common (a.extractLsb' 0 2))
  rw [← parts] at hc
  simp only [csrName, hc, Option.some.injEq] at h
  exact h ▸ hd

/-- `intsyscr` is the register at 0x804. -/
theorem csrName_intsyscr {m : Model} {n : CsrName} (h : csrName m 0x804 = some n) : n = .intsyscr := by
  cases m <;> cases h <;> rfl

/-- The check refuses each forbidden access. -/
theorem CsrForbidden.refused {s : State} {a : BitVec 12} {w : Bool} (h : CsrForbidden s a w) :
    s.csrAllowed a w = none := by
  unfold State.csrAllowed
  split
  · rfl
  · rename_i n hn
    refine if_neg fun hm => ?_
    simp only [State.csrMayAccess, Bool.and_eq_true, Bool.not_eq_true', Bool.and_eq_false_iff, bne_eq_false_iff_eq,
      decide_eq_false_iff_not, beq_eq_false_iff_ne] at hm
    obtain ⟨⟨⟨hdebug, hmachine⟩, hlock⟩, hreadonly⟩ := hm
    rcases h with hnone | ⟨ha, hd⟩ | ⟨hu, ha⟩ | ⟨hu, rfl, hl⟩ | ⟨hw, ha⟩
    · rw [hn] at hnone; cases hnone
    · rcases hdebug with h | h
      · rw [debugOnly_of_address hn ha] at h; cases h
      · exact h hd
    · exact hmachine.elim (fun h => h hu) ha
    · rcases hlock with (h | h) | h
      · exact h (csrName_intsyscr hn)
      · rw [hl] at h; cases h
      · exact h hu
    · rcases hreadonly with h | h
      · rw [hw] at h; cases h
      · exact h ha

/-- A forbidden access raises the illegal-instruction exception. -/
theorem State.csrInstr_forbidden {s : State} {op : CsrOp} {rd : Reg} {a : BitVec 12} {src bits : Word} {z : Bool}
    (h : CsrForbidden s a (decide (op = .write) || !z)) :
    s.csrInstr op rd a src z bits = s.raiseExc (.illegalInstruction bits) := by
  unfold State.csrInstr
  dsimp only
  rw [h.refused]

/-- Settles O25: the six are the common operation, which raises the exception where the check refuses the access. -/
theorem forbiddenCsrAccessesTrap : Obligations.ForbiddenCsrAccessesTrap := by
  intro s rd rs1 a u hs
  have other : ∀ {n : Nat} (op : CsrOp) (f : BitVec n), op ≠ .write →
      (decide (op = .write) || !decide (f = 0)) = decide (f ≠ 0) := by
    intro n op f h
    simp [h]
  simp only [List.forall_mem_cons, List.not_mem_nil, false_imp_iff, implies_true, and_true]
  refine ⟨⟨fun h => ?_, fun h => ?_⟩, ⟨fun h => ?_, fun h => ?_⟩, ⟨fun h => ?_, fun h => ?_⟩, fun hu => ?_⟩
  · exact .of_raiseExc hs (State.csrInstr_forbidden (op := .write) h)
  · exact .of_raiseExc hs (State.csrInstr_forbidden (op := .write) h)
  · exact .of_raiseExc hs (State.csrInstr_forbidden (op := .set) (by rwa [other _ _ (by decide)]))
  · exact .of_raiseExc hs (State.csrInstr_forbidden (op := .clear) (by rwa [other _ _ (by decide)]))
  · exact .of_raiseExc hs (State.csrInstr_forbidden (op := .set) (by rwa [other _ _ (by decide)]))
  · exact .of_raiseExc hs (State.csrInstr_forbidden (op := .clear) (by rwa [other _ _ (by decide)]))
  · refine .of_raiseExc hs ?_
    have heff : s.effPriv = .user := by rw [State.effPriv, if_pos hs, hu]
    show execMret s = _
    rw [execMret, heff]
    rfl

end Sys2Proof.Machine

/-! SUPPORT. The return from a trap, and the hardware stack from the entry to the return (spec/60_exceptions.md R440 to
R446). -/

namespace Sys2Proof.Machine

/-! ## What a pop leaves in the general registers (R445, R446) -/

/-- Writes of several registers: a register that is written reads its value, every other as before. -/
theorem State.readReg_writeRegs_map (f : Reg → Word) (r : Reg) : ∀ (rs : List Reg) (s : State),
    (s.writeRegs rs (rs.map f)).readReg r = if r ∈ rs ∧ r ≠ 0 then f r else s.readReg r
  | [], _ => by simp [State.writeRegs]
  | q :: rs, s => by
    rw [List.map_cons, State.writeRegs, State.readReg_writeRegs_map f r rs, State.readReg_writeReg]
    by_cases hq : r = q
    · subst hq
      by_cases h0 : r = 0
      · simp [h0]
      · rw [if_pos (⟨rfl, h0⟩ : r = r ∧ r ≠ 0), if_pos (⟨List.mem_cons_self, h0⟩ : r ∈ r :: rs ∧ r ≠ 0), ite_self]
    · simp [hq]

/-- A pop of the saved registers restores each of the 16 (R445). -/
theorem State.readReg_hpeRestore (s u : State) (r : Reg) :
    (u.hpeRestore s.hpeSave).readReg r = if r ∈ hpeRegs then s.readReg r else u.readReg r := by
  have frame : s.hpeSave.toList = hpeRegs.map s.readReg := rfl
  have nonzero : r ∈ hpeRegs → r ≠ 0 := by revert r; decide
  rw [State.hpeRestore, frame, State.readReg_writeRegs_map]
  simp only [and_iff_left_of_imp nonzero]

theorem State.readReg_writeRegs_of_not_mem (r : Reg) : ∀ (rs : List Reg) (vs : List Word) (s : State), r ∉ rs →
    (s.writeRegs rs vs).readReg r = s.readReg r
  | [], _, _, _ => rfl
  | _ :: _, [], _, _ => rfl
  | q :: rs, v :: vs, s, h => by
    rw [List.mem_cons, not_or] at h
    rw [State.writeRegs, State.readReg_writeRegs_of_not_mem r rs vs _ h.2, State.readReg_writeReg,
      if_neg fun e => h.1 e.1]

theorem State.readReg_hpeScramble_of_not_mem (r : Reg) : ∀ (rs : List Reg) (s : State), r ∉ rs →
    (s.hpeScramble rs).readReg r = s.readReg r
  | [], _, _ => rfl
  | q :: rs, s, h => by
    rw [List.mem_cons, not_or] at h
    rw [State.hpeScramble, State.readReg_hpeScramble_of_not_mem r rs _ h.2]
    exact (s.readReg_writeReg q r s.free).trans (if_neg fun e => h.1 e.1)

/-- A pop changes the 16 registers alone, whatever the place holds (R446). -/
theorem State.readReg_hpePop_of_not_mem {r : Reg} (h : r ∉ hpeRegs) (s : State) (k : Nat) :
    (s.hpePop k).readReg r = s.readReg r := by
  have restore : ∀ (u : State) (f : HpeFrame), (u.hpeRestore f).readReg r = u.readReg r :=
    fun u f => State.readReg_writeRegs_of_not_mem r _ _ u h
  have scramble : ∀ u : State, (u.hpeScramble hpeRegs).readReg r = u.readReg r :=
    fun u => State.readReg_hpeScramble_of_not_mem r _ u h
  unfold State.hpePop
  dsimp only
  split
  · rfl
  · split
    · split
      · exact restore _ _
      · exact scramble _
    · exact scramble _
    · split
      · exact scramble _
      · rfl
    · split
      · exact scramble _
      · rfl

/-- With GIHWSTKNEN set nothing is popped (R441). -/
theorem State.hpePop_of_gihwstknen {s : State} (h : s.gihwstknen = true) (k : Nat) :
    s.hpePop k = { s with hpe := s.hpe.setIfInBounds k .empty } := if_pos h

/-- With the stack enabled a saved frame is restored (R445). -/
theorem State.hpePop_of_saved {s : State} {k : Nat} {f : HpeFrame} (he : s.hpeEnabled = true)
    (h : s.hpe[k]? = some (.saved f)) :
    s.hpePop k = ({ s with hpe := s.hpe.setIfInBounds k .empty } : State).hpeRestore f := by
  rw [State.hpeEnabled, Bool.and_eq_true, Bool.not_eq_true'] at he
  unfold State.hpePop
  simp only [he.1, he.2, h]
  rfl

/-! ## The return (R272, R440) -/

theorem exec_mret {s : State} (h : s.effPriv = .machine) : exec .mret s = s.trapReturn := by
  show execMret s = _
  rw [execMret, h]

theorem State.trapReturn_of_handler {s : State} {slot : Nat} {rest : List Nat} (hh : s.handlers = slot :: rest)
    (hn : rest.length ≤ 1) : s.trapReturn = .next (s.returnCore.endHandler slot rest.length rest) := by
  rw [State.trapReturn, hh]
  exact if_neg (by omega)

section
variable (s : State) (slot k : Nat) (rest : List Nat)

/-- The end of a handler leaves the registers of the pop. -/
theorem State.readReg_endHandler (r : Reg) : (s.endHandler slot k rest).readReg r = (s.hpePop k).readReg r :=
  State.readReg_congr (by rw [State.endHandler_eq]) r

theorem State.returnCore_hpeEnabled : s.returnCore.hpeEnabled = s.hpeEnabled := State.hpeEnabled_congr rfl rfl rfl

/-- A return leaves the fields of R440, whatever handler it ends. -/
theorem State.return_returned : Returned s (s.returnCore.endHandler slot k rest) := by
  rw [Returned, State.endHandler_pc, State.endHandler_priv, State.endHandler_csr]
  refine ⟨rfl, rfl, mkMstatus_mie _ _ _, ?_, rfl⟩
  show (mstatusMpie (mkMstatus _ _ _) = _ ∧ mstatusMpp (mkMstatus _ _ _) = _) ∨
    (mstatusMpie (mkMstatus _ _ _) = true ∧ mstatusMpp (mkMstatus _ _ _) = .user)
  simp only [mkMstatus_mpie, mkMstatus_mpp]
  cases s.free.getLsbD 0 with
  | false => exact .inr ⟨rfl, rfl⟩
  | true => exact .inl ⟨rfl, rfl⟩

/-- The places below the handler that ends (R441, R446). -/
theorem State.return_hpe (j : Fin 2) (hj : j.val < rest.length) :
    (s.returnCore.endHandler slot rest.length rest).hpe[j] =
      if (s.returnCore.endHandler slot rest.length rest).hpeEnabled ≠ s.hpeEnabled then .unbalanced else s.hpe[j] := by
  rw [State.endHandler_hpe, State.returnCore_hpeEnabled]
  have below : (s.hpe.setIfInBounds rest.length .empty)[j] = s.hpe[j] :=
    Vector.getElem_setIfInBounds_ne _ (Nat.ne_of_gt hj)
  by_cases he : (s.returnCore.endHandler slot rest.length rest).hpeEnabled = s.hpeEnabled
  · rw [if_pos he, if_neg (not_not.mpr he)]
    exact below
  · rw [if_neg he, if_pos he, Fin.getElem_fin, unbalance_getElem _ _ _ j.isLt, if_pos hj]

end

/-- `mret` with one or two handlers running ends the innermost one. -/
theorem mret_ends_handler {s : State} {slot : Nat} {rest : List Nat} (hp : s.effPriv = .machine)
    (hh : s.handlers = slot :: rest) (hn : rest.length ≤ 1) :
    exec .mret s = .next (s.returnCore.endHandler slot rest.length rest) :=
  (exec_mret hp).trans (State.trapReturn_of_handler hh hn)

/-! ## From the entry to the return (R445) -/

/-- A handler returns to what its trap interrupted: the entry pushes the 16 registers in the place from which the return
pops them, and the handler may change the general registers in between. -/
theorem mret_after_enterTrap (s : State) (cause tval : Word) (slot : Nat) (a : Word) (regs : Vector Word 32)
    (hl : s.level ≤ 1) (he : s.hpeEnabled = true) :
    ∃ u, exec .mret { s.enterTrap cause tval slot a with regs := regs } = .next u ∧
      (∀ r ∈ hpeRegs, u.readReg r = s.readReg r) ∧
      (∀ r, r ∉ hpeRegs → u.readReg r = ({ s.enterTrap cause tval slot a with regs := regs } : State).readReg r) ∧
      u.pc = s.pc &&& 0xFFFFFFFE ∧ u.priv = s.priv ∧ mstatusMie u.csr.mstatus = mstatusMie s.csr.mstatus ∧
      u.handlers = s.handlers ∧ SameMemory s u := by
  generalize hT : ({ s.enterTrap cause tval slot a with regs := regs } : State) = T
  have effPriv : T.effPriv = .machine := by
    subst hT
    unfold State.effPriv
    split <;> rfl
  have handlers : T.handlers = slot :: s.handlers := by subst hT; rfl
  have enabled : T.returnCore.hpeEnabled = true := by
    rw [State.returnCore_hpeEnabled, ← he]
    subst hT
    rw [State.enterTrap_eq]
    exact State.hpeEnabled_congr rfl rfl rfl
  have saved : T.returnCore.hpe[s.handlers.length]? = some (.saved s.hpeSave) := by
    subst hT
    show (s.enterTrap cause tval slot a).hpe[s.level]? = _
    rw [State.enterTrap_eq, he]
    exact Vector.getElem?_setIfInBounds_self_of_lt (by omega)
  have regs : ∀ r, (T.returnCore.endHandler slot s.handlers.length s.handlers).readReg r =
      if r ∈ hpeRegs then s.readReg r else T.readReg r := by
    intro r
    rw [State.readReg_endHandler, State.hpePop_of_saved enabled saved, State.readReg_hpeRestore]
    rfl
  have returned := State.return_returned T slot s.handlers.length s.handlers
  obtain ⟨hpc, hpriv, hmie, -, -⟩ := returned
  refine ⟨_, mret_ends_handler effPriv handlers hl, fun r hr => ?_, fun r hr => ?_, ?_, ?_, ?_, rfl, fun c => ?_⟩
  · rw [regs, if_pos hr]
  · rw [regs, if_neg hr]
  · rw [hpc]; subst hT; rfl
  · rw [hpriv]; subst hT; exact mkMstatus_mpp _ _ _
  · rw [hmie]; subst hT; exact mkMstatus_mpie _ _ _
  · rw [State.endHandler_mem]
    subst hT
    show Memory.read (s.enterTrap cause tval slot a).mem c = _
    rw [State.enterTrap_mem]

/-- Settles O38: the round trip is that of the entry sequence, after at most one free value; the second part is the end
of one handler. -/
theorem hardwareStackRoundTrip : Obligations.HardwareStackRoundTrip := by
  refine ⟨fun s t regs hl he ht => ?_, fun s slot rest hp hh hn => ?_⟩
  · have entered : ∃ s' cause tval slot a, SameOrDrawn s s' ∧ t = s'.enterTrap cause tval slot a := by
      rcases ht with ⟨e, ht⟩ | ⟨n, ht⟩
      · obtain ⟨-, a, s', ha, rfl⟩ := State.takeException_cases ht
        exact ⟨s', _, _, _, a, (State.tableEntry_cases ha).1, rfl⟩
      · obtain ⟨-, a, s', ha, rfl⟩ := State.takeInterrupt_cases ht
        exact ⟨s', _, _, _, a, (State.interruptEntry_cases ha).1, rfl⟩
    obtain ⟨s', cause, tval, slot, a, hd, rfl⟩ := entered
    rcases hd with rfl | rfl
    · exact mret_after_enterTrap _ cause tval slot a regs hl he
    · exact mret_after_enterTrap s.drawn cause tval slot a regs hl he
  · refine ⟨_, mret_ends_handler hp hh hn, State.return_returned _ _ _ _, rfl, fun r hr => ?_, fun hg r => ?_, fun c => ?_,
      State.return_hpe s slot rest⟩
    · rw [State.readReg_endHandler, State.readReg_hpePop_of_not_mem hr]
      rfl
    · have gihwstknen : s.returnCore.gihwstknen = true := (State.gihwstknen_congr rfl rfl).trans hg
      rw [State.readReg_endHandler, State.hpePop_of_gihwstknen gihwstknen]
      rfl
    · rw [State.endHandler_mem]
      rfl

end Sys2Proof.Machine

/-! SUPPORT. Hardware triggers (spec/10_state.md R52, spec/62_systick_power_debug.md R570, R571, R577, R578): the model's
comparison of addresses bit by bit, the channel that fires, and what the instruction or the step then does. -/

namespace Sys2Proof.Machine

/-! ## The comparison (R578) -/

/-- The trailing ones of a number end at its lowest 0 bit. -/
theorem trailingOnes_eq : ∀ {fuel n v : Nat}, n < fuel → v.testBit n = false → (∀ j, j < n → v.testBit j = true) →
    trailingOnes fuel v = n
  | 0, _, _, hn, _, _ => absurd hn (Nat.not_lt_zero _)
  | fuel + 1, 0, v, _, h0, _ => by
    rw [Nat.testBit_zero, decide_eq_false_iff_not] at h0
    rw [trailingOnes, if_neg h0]
  | fuel + 1, n + 1, v, hn, h0, h1 => by
    have odd : v % 2 = 1 := by
      have := h1 0 (Nat.succ_pos n)
      rwa [Nat.testBit_zero, decide_eq_true_eq] at this
    have half : ∀ j, (v / 2).testBit j = v.testBit (j + 1) := fun j => (Nat.testBit_succ v j).symm
    rw [trailingOnes, if_pos odd, trailingOnes_eq (Nat.lt_of_succ_lt_succ hn) ((half n).trans h0)
      fun j hj => (half j).trans (h1 (j + 1) (Nat.succ_lt_succ hj))]

/-- Two words agree above a bit exactly when their quotients by the power of two above it agree. -/
theorem div_two_pow_eq_iff (a b : Word) (n : Nat) :
    a.toNat / 2 ^ (n + 1) = b.toNat / 2 ^ (n + 1) ↔ ∀ j, n < j → j < 32 → a.getLsbD j = b.getLsbD j := by
  constructor
  · intro h j hj _
    have bit : ∀ w : Word, w.getLsbD j = (w.toNat / 2 ^ (n + 1)).testBit (j - (n + 1)) := by
      intro w
      rw [Nat.testBit_div_two_pow, Nat.sub_add_cancel hj]
      rfl
    rw [bit a, bit b, h]
  · intro h
    refine Nat.eq_of_testBit_eq fun j => ?_
    rw [Nat.testBit_div_two_pow, Nat.testBit_div_two_pow]
    by_cases hj : j + (n + 1) < 32
    · exact h _ (by omega) hj
    · have high : ∀ w : Word, w.toNat.testBit (j + (n + 1)) = false :=
        fun w => BitVec.getLsbD_of_ge w _ (Nat.le_of_not_lt hj)
      rw [high a, high b]

/-- With MATCH the comparison is of the bits above the lowest 0 bit of tdata2. -/
theorem triggerAddress_match {t1 t2 : Word} (a : Word) {n : Nat} (hm : t1.getLsbD 7 = true) (hn : n < 31)
    (h0 : t2.getLsbD n = false) (h1 : ∀ j, j < n → t2.getLsbD j = true) :
    triggerAddress t1 t2 a = true ↔ ∀ j, n < j → j < 32 → a.getLsbD j = t2.getLsbD j := by
  have ones : trailingOnes 32 t2.toNat = n := trailingOnes_eq (by omega) h0 h1
  rw [triggerAddress, if_pos hm, ones, if_pos hn, beq_iff_eq, div_two_pow_eq_iff]

theorem triggerAddress_equal {t1 t2 : Word} (a : Word) (hm : t1.getLsbD 7 = false) :
    triggerAddress t1 t2 a = true ↔ a = t2 := by
  rw [triggerAddress, if_neg (by rw [hm]; decide), beq_iff_eq]

theorem TriggerAddress.holds {t1 t2 a : Word} (h : TriggerAddress t1 t2 a) : triggerAddress t1 t2 a = true := by
  rcases h with ⟨hm, ha⟩ | ⟨hm, n, hn, h0, h1, ha⟩
  · exact (triggerAddress_equal a hm).mpr ha
  · exact (triggerAddress_match a hm hn h0 h1).mpr ha

theorem TriggerMisses.fails {t1 t2 a : Word} (h : TriggerMisses t1 t2 a) : triggerAddress t1 t2 a = false := by
  rw [← Bool.not_eq_true]
  rcases h with ⟨hm, ha⟩ | ⟨hm, n, hn, h0, h1, j, hj, hlt, ha⟩
  · exact mt (triggerAddress_equal a hm).mp ha
  · exact fun e => ha ((triggerAddress_match a hm hn h0 h1).mp e j hj hlt)

/-! ## The channel that fires (R52, R577) -/

/-- The bit of tdata1 that enables the current mode. -/
theorem triggerMode_eq (t1 : Word) (p : Priv) : triggerMode t1 p = t1.getLsbD (if p = .machine then 6 else 3) := by
  cases p <;> rfl

theorem State.triggerMatches_eq (s : State) (k : Access) (a : Word) (c : Fin 4) : s.triggerMatches k a c =
    (triggerKind s.cfg.model s.csr.tdata1[c] k && triggerMode s.csr.tdata1[c] s.priv &&
      triggerAddress s.csr.tdata1[c] s.csr.tdata2[c] a) := by
  have h1 : s.csr.tdata1[c.val]? = some s.csr.tdata1[c] := Vector.getElem?_eq_getElem c.isLt
  have h2 : s.csr.tdata2[c.val]? = some s.csr.tdata2[c] := Vector.getElem?_eq_getElem c.isLt
  simp only [State.triggerMatches, h1, h2]

/-- The channel that matches fires with its ACTION: it is the lowest one. -/
theorem ChannelMatches.fires {s : State} {c : Fin 4} {kind : Nat} {k : Access} {a : Word} (hs : s.dbg = .running)
    (hk : ∀ t1, triggerKind s.cfg.model t1 k = t1.getLsbD kind) (h : ChannelMatches s c kind a) :
    s.firedTrigger k a = some (s.csr.tdata1[c].getLsbD 12) := by
  obtain ⟨hm, hc, ⟨hkind, hmode⟩, haddr, hlower⟩ := h
  have hit : s.triggerMatches k a c = true := by
    rw [State.triggerMatches_eq, hk, triggerMode_eq, hkind, hmode, haddr.holds]
    rfl
  have miss : ∀ j : Fin 4, j < c → s.triggerMatches k a j = false := by
    intro j hj
    rw [State.triggerMatches_eq, hk, triggerMode_eq]
    rcases hlower j hj with hn | hn
    · rw [ChannelEnabled, ← Bool.and_eq_true, Bool.not_eq_true] at hn
      rw [hn]
      rfl
    · rw [hn.fails, Bool.and_false]
  have channels : c.val < s.channels := by
    rw [State.channels, if_neg hm]
    exact lt_min hc c.isLt
  have found : (List.range s.channels).find? (s.triggerMatches k a) = some c.val := by
    rw [List.find?_range_eq_some]
    refine ⟨hit, List.mem_range.mpr channels, fun j hj => ?_⟩
    rw [miss ⟨j, hj.trans c.isLt⟩ hj]
    rfl
  rw [State.firedTrigger, if_neg (not_not.mpr hs)]
  simp only [found]
  rw [Vector.getElem?_eq_getElem c.isLt]
  rfl

/-- V3A has no channel (R577). -/
theorem State.firedTrigger_v3a {s : State} (hm : s.cfg.model = .v3a) (k : Access) (a : Word) :
    s.firedTrigger k a = none := by
  have none_found : (List.range s.channels).find? (s.triggerMatches k a) = none := by
    rw [State.channels, if_pos hm]
    rfl
  rw [State.firedTrigger]
  split
  · rfl
  · simp only [none_found]

/-- No channel matches an access of a kind that none can enable (R52). -/
theorem State.firedTrigger_of_kind {s : State} {k : Access} (hk : ∀ t1, triggerKind s.cfg.model t1 k = false)
    (a : Word) : s.firedTrigger k a = none := by
  have none_found : (List.range s.channels).find? (s.triggerMatches k a) = none := by
    refine List.find?_eq_none.mpr fun c _ => ?_
    unfold State.triggerMatches
    split
    · simp only [hk, Bool.false_and, Bool.false_eq_true, not_false_eq_true]
    · decide
  rw [State.firedTrigger]
  split
  · rfl
  · simp only [none_found]

/-! ## What a trigger that fires does (R570, R571, R578) -/

/-- A trigger that fires: the breakpoint exception, or with ACTION = 1 an entry to debug mode. -/
def State.triggered (s : State) (action : Bool) : Outcome :=
  if action then .next s.enterDebugByTrigger else s.raiseExc (.breakpoint s.pc)

theorem State.compactAddr_eq (s : State) (r : CReg) (u : BitVec 7) :
    s.compactAddr r u = s.readReg (wideReg r) + BitVec.ofNat 32 u.toNat := by
  rw [BitVec.ofNat_toNat]
  rfl

theorem State.stackAddr_eq (s : State) (u : BitVec 8) : s.stackAddr u = s.readReg 2 + BitVec.ofNat 32 u.toNat := by
  rw [BitVec.ofNat_toNat]
  rfl

/-- A load that a trigger matches makes no access. -/
theorem State.loadInstr_triggered {s : State} {a : Word} {b : Bool} (h : s.firedTrigger .load a = some b) (w : Width)
    (ext : Word → Word) (rd : Reg) (len : Word) : s.loadInstr w ext rd a len = s.triggered b := by
  unfold State.loadInstr State.loadData State.checkAccess
  rw [h]
  cases b <;> rfl

/-- A store that a trigger matches makes no access. -/
theorem State.storeInstr_triggered {s : State} {a : Word} {b : Bool} (h : s.firedTrigger .store a = some b) (w : Width)
    (v len : Word) : s.storeInstr w a v len = s.triggered b := by
  unfold State.storeInstr State.storeData State.checkAccess
  rw [h]
  cases b <;> rfl

/-- An entry to debug mode writes cause and prv, and leaves dpc (R570). -/
theorem State.enterDebug_enters (s : State) (cause : BitVec 3) (dpc : Word) :
    EntersDebug s (s.enterDebug cause dpc) cause :=
  ⟨dcsrOnEntry_cause _ _ _, dcsrOnEntry_prv _ _ _, dcsrOnEntry_fixed _ _ _ rfl, rfl⟩

theorem State.enterDebugByTrigger_enters (s : State) : EntersDebugByTrigger s s.enterDebugByTrigger :=
  s.drawn.enterDebug_enters 2 s.free

/-- An instruction that a trigger with an ACTION stops: the trap, or the entry to debug mode. -/
theorem hits_of_triggered {i : Instr} {s : State} {b : Bool} (hs : s.dbg = .running) (h : exec i s = s.triggered b) :
    (b = false → Traps i s (.breakpoint s.pc)) ∧ (b = true → ∃ t, exec i s = .next t ∧ EntersDebugByTrigger s t) := by
  refine ⟨fun hb => ?_, fun hb => ?_⟩
  · subst hb; exact .of_raiseExc hs h
  · subst hb; exact ⟨_, h, s.enterDebugByTrigger_enters⟩

/-! ## A step with nothing between the boundary and the instruction (R425) -/

/-- A quiet boundary runs one instruction, and ends the step. -/
theorem Quiet.step_eq {s : State} (h : Quiet s) : step s = mapNext State.endStep s.instrCycle := by
  obtain ⟨hd, hs, hi, hh, hn⟩ := h
  have absorbed : s.absorb = .ok () s := by unfold State.absorb; rw [hi]
  have awake : s.wake = s := by unfold State.wake; rw [hs]
  have boundary : s.boundary = s.instrCycle := by unfold State.boundary; rw [hn]
  have running : s.runningCycle = mapNext State.endStep s.instrCycle := by
    rw [State.runningCycle, hh, awake, hs, boundary]
    rfl
  rw [step, State.cycle, absorbed, State.run]
  simp only [hd, running]

/-- A single step ends no step of a core that does not run (R574). -/
theorem State.endStep_of_not_running {t : State} (h : t.dbg ≠ .running) : t.endStep = t := by
  rw [State.endStep, decide_eq_false h, Bool.and_false]
  rfl

/-- At a quiet boundary a trigger that matches the pc is the whole step. -/
theorem Quiet.step_triggered {s : State} {b : Bool} (h : Quiet s) (hf : s.firedTrigger .fetch s.pc = some b) :
    step s = mapNext State.endStep (s.triggered b) := by
  rw [h.step_eq, State.instrCycle, hf]
  cases b <;> rfl

/-- Settles O34: a channel that matches fires, and what fires stops the load, the store or the step. -/
theorem hardwareTriggers : Obligations.HardwareTriggers := by
  intro s rd rs1 rs2 d e imm u v ch hs action a c p hits
  have compact : c = s.compactAddr e u := (s.compactAddr_eq e u).symm
  have stack : p = s.stackAddr v := (s.stackAddr_eq v).symm
  have load : s.cfg.model = .v3c → ∀ {y}, ChannelMatches s ch 0 y → s.firedTrigger .load y = some action := by
    intro hm y hc
    exact hc.fires hs fun t1 => by rw [hm]; rfl
  have store : s.cfg.model = .v3c → ∀ {y}, ChannelMatches s ch 1 y → s.firedTrigger .store y = some action := by
    intro hm y hc
    exact hc.fires hs fun t1 => by rw [hm]; rfl
  refine ⟨fun hq hc => ?_, fun hm hc => ?_, fun hm hc => ?_, fun hm hc => ?_, fun hm hc => ?_, fun hm hc => ?_,
    fun hm hc => ?_, fun hm => State.firedTrigger_v3a hm, fun hm y => ⟨?_, ?_⟩⟩
  · have hstep := hq.step_triggered (hc.fires (k := .fetch) hs fun _ => rfl)
    refine ⟨fun hb entry ht => ?_, fun hb => ?_⟩
    · refine ⟨_, hstep.trans ?_, s.enterTrap_entered _ _ _ entry⟩
      rw [show s.csr.tdata1[ch].getLsbD 12 = false from hb]
      exact congrArg (mapNext State.endStep) (State.raiseExc_enters (e := .breakpoint s.pc) hs ht)
    · refine ⟨_, hstep.trans ?_, s.enterDebugByTrigger_enters⟩
      rw [show s.csr.tdata1[ch].getLsbD 12 = true from hb]
      exact congrArg Host.Outcome.next (State.endStep_of_not_running (nofun : DebugState.halted ≠ .running))
  · have run := fun w ext => s.loadInstr_triggered (load hm hc) w ext rd 4
    simp only [List.forall_mem_cons, List.not_mem_nil, false_imp_iff, implies_true, and_true]
    exact ⟨hits_of_triggered hs (run _ _), hits_of_triggered hs (run _ _), hits_of_triggered hs (run _ _),
      hits_of_triggered hs (run _ _), hits_of_triggered hs (run _ _)⟩
  · rw [compact] at hc
    exact hits_of_triggered hs (s.loadInstr_triggered (load hm hc) _ _ _ _)
  · rw [stack] at hc
    exact hits_of_triggered hs (s.loadInstr_triggered (load hm hc) _ _ _ _)
  · have run := fun w => s.storeInstr_triggered (store hm hc) w (s.readReg rs2) 4
    simp only [List.forall_mem_cons, List.not_mem_nil, false_imp_iff, implies_true, and_true]
    exact ⟨hits_of_triggered hs (run _), hits_of_triggered hs (run _), hits_of_triggered hs (run _)⟩
  · rw [compact] at hc
    exact hits_of_triggered hs (s.storeInstr_triggered (store hm hc) _ _ _)
  · rw [stack] at hc
    exact hits_of_triggered hs (s.storeInstr_triggered (store hm hc) _ _ _)
  · exact State.firedTrigger_of_kind (fun _ => by rw [hm]; rfl) y
  · exact State.firedTrigger_of_kind (fun _ => by rw [hm]; rfl) y

end Sys2Proof.Machine

/-! SUPPORT. The state right after reset (spec/10_state.md R68, spec/70_reset_and_hazards.md R590). -/

namespace Sys2Proof.Machine

/-- After reset no timer request is asserted and no pending bit latched. -/
theorem State.resetWith_pending (c : Config) : (State.resetWith c).pending = 0 := by
  have requests : ∀ m, levelRequests m SysTick.reset = 0 := fun m => by cases m <;> rfl
  rw [State.pending, State.resetWith_pfic, State.resetWith_stk, State.resetWith_cfg, requests]
  rfl

/-- After reset only the fixed slots are enabled (R474). -/
theorem State.resetWith_enabled (c : Config) : (State.resetWith c).enabled = fixedSlots c.model := by
  rw [State.enabled, State.resetWith_pfic, State.resetWith_cfg, Pfic.reset]
  simp

theorem groupWord_fixedSlots (m : Model) : groupWord (fixedSlots m) 0 = if m = .v3a then 0xC else 0x32C := by
  cases m <;> rfl

/-- After reset no command runs and none has failed (R561). -/
theorem State.resetWith_abstractcs (c : Config) : (State.resetWith c).dmValue .abstractcs = 0x08000002 := by
  have idle : (State.resetWith c).dmBusy = false := rfl
  rw [State.dmValue, idle, State.resetWith_dm]
  simp [DebugModule.reset]

/-- Settles O52: the reset values, one register after the other. -/
theorem resetValues : Obligations.ResetValues := by
  intro c s
  refine ⟨rfl, rfl, rfl, rfl, rfl, rfl, rfl, rfl, rfl, rfl, rfl, rfl, rfl, rfl, rfl, rfl, rfl, rfl, rfl,
    State.resetWith_pending c, rfl, ?_, rfl, rfl, State.resetWith_abstractcs c, rfl⟩
  rw [State.resetWith_enabled, groupWord_fixedSlots]

theorem State.resetWith_prioOf (c : Config) (n : Nat) : (State.resetWith c).prioOf n = 0 := by
  unfold State.prioOf
  split
  · rename_i p hp
    rw [State.resetWith_pfic, Pfic.reset, Vector.getElem?_replicate] at hp
    split at hp <;> cases hp
    rfl
  · rfl

/-- Every field of the devices is 0 after reset. -/
theorem deviceFieldsLegal_resetWith (c : Config) : DeviceFieldsLegal (State.resetWith c) where
  enable := BitVec.zero_and
  priorities n := by rw [State.resetWith_prioOf]; exact BitVec.zero_and
  threshold := BitVec.zero_and
  control := BitVec.zero_and
  pendingNumbers := BitVec.zero_and
  activeNumbers := BitVec.zero_and
  vtfBase := BitVec.zero_and
  vtfTargets _ k := by
    show (Vector.replicate 4 (0 : Word))[k] &&& 0x00F00000 = 0
    revert k
    decide
  timerControl := BitVec.zero_and
  timerStatus := BitVec.zero_and

/-- Settles O54: each invariant at reset. -/
theorem resetMeetsInvariants : Obligations.ResetMeetsInvariants :=
  fun c => ⟨State.reset_mem_wf c, pcEven_resetWith c, csrFieldsLegal_reset c.model, deviceFieldsLegal_resetWith c⟩

end Sys2Proof.Machine

/-! SUPPORT. Memory keeps its canonical form (spec/20_memory.md R100, R103). -/

namespace Sys2Proof.Machine

/-- Every kind of change a step is made of keeps memory in its canonical form: only writes of bytes touch it, and they
keep the form. -/
theorem kept_memoryCanonical : Kept MemoryCanonical where
  other h hc := by rw [MemoryCanonical, hc.mem]; exact h
  pc _ h := h
  mem hc h := Memory.wf_writeCells _ h hc
  device hd h := by rw [hd.1]; exact h
  timer _ _ h := h
  csr hw h := by rw [State.csrWrite_frame hw]; exact h
  trap _ _ _ h := by rw [MemoryCanonical, State.enterTrap_mem]; exact h
  ret h := h
  endHandler _ h := by rw [MemoryCanonical, State.endHandler_mem]; exact h
  debug h := h
  reset h := h

/-- Settles O55: every kind of change a step is made of keeps memory in its canonical form. -/
theorem stepKeepsMemoryCanonical : Obligations.StepKeepsMemoryCanonical :=
  fun _ _ h hs => kept_memoryCanonical.step hs h

end Sys2Proof.Machine

/-! SUPPORT. Loads that reach memory, and the fences (spec/41_rv32i_control_mem.md R250 to R263, spec/42_system.md
R274). -/

namespace Sys2Proof.Machine

/-! ## Loads (R103, R250 to R255) -/

theorem ReachesMemory.checkAccess {s : State} {k : Access} {w : Width} {a : Word} (h : ReachesMemory s k w a) :
    s.checkAccess k w a = .ok () s := by
  obtain ⟨hf, ha, hp, -⟩ := h
  exact State.checkAccess_ok hf ha hp

theorem State.readTarget_memory {s : State} {a : Word} (h : s.target a = .memory) (w : Width) :
    s.readTarget w a = .ok (Memory.load s.mem w a) s := by
  simp only [State.readTarget, h]

/-- A load that reaches memory retires what memory holds there. -/
theorem ReachesMemory.loadInstr {s : State} {w : Width} {a : Word} (h : ReachesMemory s .load w a)
    (ext : Word → Word) (rd : Reg) (len : Word) :
    s.loadInstr w ext rd a len = s.retire rd (ext (Memory.load s.mem w a)) len := by
  obtain ⟨-, -, -, ht⟩ := id h
  simp only [State.loadInstr, State.loadData, h.checkAccess, Res.bind, State.readTarget_memory ht, State.run]

/-- A load instruction that reaches memory completes. -/
theorem Completes.of_loadInstr {i : Instr} {s : State} {w : Width} {ext : Word → Word} {rd : Reg} {a len : Word}
    (h : ReachesMemory s .load w a) (hi : exec i s = s.loadInstr w ext rd a len) :
    Completes i s rd (ext (Memory.load s.mem w a)) (s.pc + len) :=
  .of_retire (hi.trans (h.loadInstr ext rd len))

/-! What memory holds at an address, by width (R103). -/

theorem load_byte (s : State) (a : Word) : Memory.load s.mem .byte a = (byteAt s a 0).zeroExtend 32 := rfl
theorem load_half (s : State) (a : Word) : Memory.load s.mem .half a = (halfAt s a).zeroExtend 32 := rfl

/-- The low bits of a zero-extended value are the value. -/
theorem extract_zeroExtend {n : Nat} (v : BitVec n) (h : n ≤ 32) : (v.zeroExtend 32).extractLsb' 0 n = v := by
  ext i hi
  simp [hi, show i < 32 by omega]

theorem signByte_load (s : State) (a : Word) : signByte (Memory.load s.mem .byte a) = (byteAt s a 0).signExtend 32 := by
  rw [load_byte, signByte, extract_zeroExtend _ (by decide)]
  rfl

theorem signHalf_load (s : State) (a : Word) : signHalf (Memory.load s.mem .half a) = (halfAt s a).signExtend 32 := by
  rw [load_half, signHalf, extract_zeroExtend _ (by decide)]
  rfl

/-- Settles O13: each form is the common load at its own address, and its extension is that of the bytes there. -/
theorem loadsReadMemory : Obligations.LoadsReadMemory := by
  intro s rd rs1 d e imm u v a c p
  have compact : s.compactAddr e u = c := s.compactAddr_eq e u
  have stack : s.stackAddr v = p := s.stackAddr_eq v
  refine ⟨fun h => ?_, fun h => .of_loadInstr (ext := id) h rfl, fun h => ?_, fun h => .of_loadInstr (ext := id) h rfl,
    fun h => .of_loadInstr (ext := id) h rfl, fun h => ?_, fun h => ?_⟩
  · rw [← signByte_load]; exact .of_loadInstr h rfl
  · rw [← signHalf_load]; exact .of_loadInstr h rfl
  · rw [← compact] at h ⊢; exact .of_loadInstr (ext := id) h rfl
  · rw [← stack] at h ⊢; exact .of_loadInstr (ext := id) h rfl

/-! ## Fences and `wfi` (R262, R263, R274, R550, R554) -/

/-- With nothing recorded as overwritten a fetch reads memory as it is (R124). -/
theorem State.fetchByte_of_fresh {s : State} (h : s.stale = []) (a : Word) :
    s.fetchByte a = (Memory.read s.mem a.toNat, s) := by
  simp only [State.fetchByte, h, List.filter_nil]

/-- Settles O17: the meanings of the three, case by case. -/
theorem fencesAndWfi : Obligations.FencesAndWfi := by
  refine ⟨fun s fm p q imm rs1 rd => ⟨rfl, rfl, fun t ht => ?_⟩,
    fun s => ⟨fun hd => ?_, fun hd he => ?_, fun hd he => ?_⟩⟩
  · cases ht
    exact State.fetchByte_of_fresh rfl
  · exact if_pos hd
  · exact (if_neg (not_not.mpr hd)).trans (if_pos he)
  · exact (if_neg (not_not.mpr hd)).trans (if_neg (by rw [State.waitForEvent, he]; decide))

end Sys2Proof.Machine

/-! SUPPORT. Stores that reach memory (spec/20_memory.md R103, spec/41_rv32i_control_mem.md R256 to R259). -/

namespace Sys2Proof.Machine

/-! ## Bytes written from an address on (R103) -/

/-- The cells of some bytes at consecutive addresses. -/
def byteCells (a : Word) (bytes : List Byte) : List Host.Cell := bytes.zipIdx.map fun p => (byteAddr a p.2, p.1)

/-- The low bytes of a value that a store of a width writes, lowest address first (R256 to R258). -/
def lowBytes : Width → Word → List Byte
  | .byte, v => [v.extractLsb' 0 8]
  | .half, v => [v.extractLsb' 0 8, v.extractLsb' 8 8]
  | .word, v => bytesOfWord v

theorem storeCells_eq_byteCells (w : Width) (a v : Word) : storeCells w a v = byteCells a (lowBytes w v) := by
  cases w <;> rfl

theorem lowBytes_length_le (w : Width) (v : Word) : (lowBytes w v).length ≤ 2 ^ 32 := by
  cases w <;> simp only [lowBytes, bytesOfWord, List.length_cons, List.length_nil] <;> decide

theorem mem_byteCells {a : Word} {bytes : List Byte} {c : Host.Cell} :
    c ∈ byteCells a bytes ↔ ∃ k, bytes[k]? = some c.2 ∧ c.1 = byteAddr a k := by
  obtain ⟨x, b⟩ := c
  simp only [byteCells, List.mem_map, Prod.exists, Prod.mk.injEq, List.mk_mem_zipIdx_iff_getElem?]
  constructor
  · rintro ⟨b', k, hk, rfl, rfl⟩
    exact ⟨k, hk, rfl⟩
  · rintro ⟨k, hk, rfl⟩
    exact ⟨b, k, hk, rfl, rfl⟩

theorem byteCells_lt (a : Word) (bytes : List Byte) : ∀ c ∈ byteCells a bytes, c.1 < 2 ^ 32 := by
  intro c hc
  obtain ⟨k, -, hk⟩ := mem_byteCells.mp hc
  exact hk ▸ byteAddr_lt a k

/-- Different offsets below 2^32 give different addresses (R11). -/
theorem byteAddr_injective (a : Word) {j k : Nat} (hj : j < 2 ^ 32) (hk : k < 2 ^ 32)
    (h : byteAddr a j = byteAddr a k) : j = k := by
  have same : BitVec.ofNat 32 j = BitVec.ofNat 32 k := (BitVec.add_right_inj a).mp (BitVec.eq_of_toNat_eq h)
  have := congrArg BitVec.toNat same
  rwa [BitVec.toNat_ofNat, BitVec.toNat_ofNat, Nat.mod_eq_of_lt hj, Nat.mod_eq_of_lt hk] at this

/-- A cell that no other one overrules gives its byte. -/
theorem Memory.read_writeCells_of_mem {c : Host.Cell} : ∀ {cells : List Host.Cell} {m : Memory}, Memory.wf m = true →
    (∀ d ∈ cells, d.1 < 2 ^ 32) → (∀ d ∈ cells, d.1 = c.1 → d = c) → c ∈ cells →
    Memory.read (Memory.writeCells m cells) c.1 = c.2
  | [], _, _, _, _, hc => absurd hc List.not_mem_nil
  | (x, v) :: rest, m, hm, hlt, huniq, hc => by
    have hw := Memory.wf_write hm (hlt (x, v) List.mem_cons_self) v
    have hrest : ∀ d ∈ rest, d.1 < 2 ^ 32 := fun d hd => hlt d (List.mem_cons_of_mem _ hd)
    rw [Memory.writeCells]
    by_cases later : c ∈ rest
    · exact Memory.read_writeCells_of_mem hw hrest (fun d hd => huniq d (List.mem_cons_of_mem _ hd)) later
    · obtain rfl : c = (x, v) := (List.mem_cons.mp hc).resolve_right later
      have untouched : ∀ d ∈ rest, x ≠ d.1 := fun d hd he =>
        later (huniq d (List.mem_cons_of_mem _ hd) he.symm ▸ hd)
      rw [Memory.read_writeCells_of_ne hw hrest untouched, Memory.read_write v x x hm, if_pos rfl]

/-- Writing bytes from an address on changes exactly those bytes. -/
theorem WritesBytes.of_writeCells {s t : State} {a : Word} {bytes : List Byte} (hm : MemoryCanonical s)
    (hl : bytes.length ≤ 2 ^ 32) (ht : t.mem = Memory.writeCells s.mem (byteCells a bytes)) :
    WritesBytes s t a bytes := by
  have below : ∀ {k b}, bytes[k]? = some b → k < 2 ^ 32 := fun h =>
    ((List.getElem?_eq_some_iff.mp h).1).trans_le hl
  rw [WritesBytes, ht]
  refine ⟨fun k b hk => ?_, fun c hc => ?_⟩
  · refine Memory.read_writeCells_of_mem (c := (byteAddr a k, b)) hm (byteCells_lt a bytes) (fun d hd he => ?_)
      (mem_byteCells.mpr ⟨k, hk, rfl⟩)
    obtain ⟨j, hj, hd1⟩ := mem_byteCells.mp hd
    obtain rfl : j = k := byteAddr_injective a (below hj) (below hk) (hd1 ▸ he)
    exact Prod.ext he (Option.some.inj (hj.symm.trans hk))
  · refine Memory.read_writeCells_of_ne hm (byteCells_lt a bytes) fun d hd => ?_
    obtain ⟨j, hj, hd1⟩ := mem_byteCells.mp hd
    exact hd1 ▸ hc j (List.getElem?_eq_some_iff.mp hj).1

/-! ## The reservation (R301) -/

theorem doubtWord_of_other {r : Option Reservation} {a : Word} (h : ∀ v, r = some v → v.addr ≠ a &&& 0xFFFFFFFC) :
    doubtWord r a = r := by
  cases r with
  | none => rfl
  | some v => exact congrArg some (if_neg (h v rfl))

theorem dropWord_of_other {r : Option Reservation} {a : Word} (h : ∀ v, r = some v → v.addr ≠ a &&& 0xFFFFFFFC) :
    dropWord r a = r := by
  cases r with
  | none => rfl
  | some v => exact if_neg (h v rfl)

/-- A store keeps a reservation of another word, whether the hart makes it or the program buffer. -/
theorem State.storedAt_keeps (s : State) (a : Word) : KeepsOtherReservation s (s.storedAt a) a := by
  intro h
  simp only [State.storedAt, doubtWord_of_other h, dropWord_of_other h, ite_self]

/-! ## Stores -/

theorem State.writeTarget_memory {s : State} {a : Word} (h : s.target a = .memory) (w : Width) (v : Word) :
    s.writeTarget w a v = .ok () (s.storeMemory w a v) := by
  simp only [State.writeTarget, h]

/-- A store to memory changes exactly the bytes of its width. -/
theorem State.storeMemory_writes {s : State} (hm : MemoryCanonical s) (w : Width) (a v : Word) :
    WritesBytes s (s.storeMemory w a v) a (lowBytes w v) :=
  .of_writeCells hm (lowBytes_length_le w v) (by rw [← storeCells_eq_byteCells]; rfl)

/-- A store that reaches memory writes there and moves on. -/
theorem ReachesMemory.storeInstr {s : State} {w : Width} {a : Word} (h : ReachesMemory s .store w a) (v len : Word) :
    s.storeInstr w a v len = .next ((s.advance len).storeMemory w a v) := by
  obtain ⟨-, -, -, ht⟩ := id h
  have reached : (s.advance len).target a = .memory := ht
  simp only [State.storeInstr, State.storeData, h.checkAccess, Res.bind, State.writeTarget_memory reached, State.run]

/-- A store instruction that reaches memory completes. -/
theorem Stores.of_storeInstr {i : Instr} {s : State} {w : Width} {a v len : Word} (hm : MemoryCanonical s)
    (h : ReachesMemory s .store w a) (hi : exec i s = s.storeInstr w a v len) :
    Stores i s a (lowBytes w v) (s.pc + len) :=
  ⟨_, hi.trans (h.storeInstr v len), (s.advance len).storeMemory_writes hm w a v, fun _ => rfl, rfl, rfl,
    (s.advance len).storedAt_keeps a⟩

/-- Settles O14: each form is the common store at its own address. -/
theorem storesWriteMemory : Obligations.StoresWriteMemory := by
  intro s rs1 rs2 d e imm u v hm a c p x
  have compact : s.compactAddr e u = c := s.compactAddr_eq e u
  have stack : s.stackAddr v = p := s.stackAddr_eq v
  refine ⟨fun h => .of_storeInstr hm h rfl, fun h => .of_storeInstr hm h rfl, fun h => .of_storeInstr hm h rfl,
    fun h => ?_, fun h => ?_⟩
  · rw [← compact] at h ⊢; exact .of_storeInstr hm h rfl
  · rw [← stack] at h ⊢; exact .of_storeInstr hm h rfl

end Sys2Proof.Machine

/-! SUPPORT. Accesses that are not made: misaligned ones, which trap, and access errors, which end the run
(spec/20_memory.md R106, R110, R115, R116, spec/44_a.md R315). -/

namespace Sys2Proof.Machine

/-! ## Alignment (R106) -/

theorem extract_zero_iff (a : Word) (n : Nat) : a.extractLsb' 0 n = 0 ↔ a.toNat % 2 ^ n = 0 := by
  rw [← BitVec.toNat_inj, BitVec.extractLsb'_toNat, Nat.shiftRight_zero, BitVec.ofNat_eq_ofNat, BitVec.toNat_ofNat,
    Nat.zero_mod]

theorem aligned_half_iff {a : Word} : aligned .half a = true ↔ a.toNat % 2 = 0 := by
  rw [aligned, beq_iff_eq, extract_zero_iff]; rfl

theorem aligned_word_iff {a : Word} : aligned .word a = true ↔ a.toNat % 4 = 0 := by
  rw [aligned, beq_iff_eq, extract_zero_iff]; rfl

theorem misaligned_half {a : Word} (h : a.toNat % 2 ≠ 0) : aligned .half a = false := by
  rwa [← Bool.not_eq_true, aligned_half_iff]

theorem misaligned_word {a : Word} (h : a.toNat % 4 ≠ 0) : aligned .word a = false := by
  rwa [← Bool.not_eq_true, aligned_word_iff]

/-! ## The instructions of V3A (R314) -/

theorem State.withA_v3a {s : State} (h : s.cfg.model = .v3a) (i : Instr) (o : Outcome) : s.withA i o = o := if_pos h

/-- The AMOs on the same operands (R305 to R313). -/
def amoForms (aq rl : Bool) (rd rs2 rs1 : Reg) : List Instr :=
  [.amoswapW aq rl rd rs2 rs1, .amoaddW aq rl rd rs2 rs1, .amoxorW aq rl rd rs2 rs1, .amoandW aq rl rd rs2 rs1,
    .amoorW aq rl rd rs2 rs1, .amominW aq rl rd rs2 rs1, .amomaxW aq rl rd rs2 rs1, .amominuW aq rl rd rs2 rs1,
    .amomaxuW aq rl rd rs2 rs1]

/-- On V3A each AMO is the common operation with a combining function of its own (R316). -/
theorem exec_amoForms {s : State} (h : s.cfg.model = .v3a) (aq rl : Bool) (rd rs2 rs1 : Reg) :
    ∀ i ∈ amoForms aq rl rd rs2 rs1, ∃ f, exec i s = s.amoInstr f rd rs2 rs1 := by
  simp only [amoForms, List.forall_mem_cons, List.not_mem_nil, false_imp_iff, implies_true, and_true]
  refine ⟨?_, ?_, ?_, ?_, ?_, ?_, ?_, ?_, ?_⟩ <;> exact ⟨_, State.withA_v3a h _ _⟩

theorem exec_lrW_v3a {s : State} (h : s.cfg.model = .v3a) (aq rl : Bool) (rd rs1 : Reg) :
    exec (.lrW aq rl rd rs1) s = s.run (s.loadData .word (s.readReg rs1)) fun v s' =>
      ({ s' with resv := some ⟨s.readReg rs1, true⟩ } : State).retire rd v 4 :=
  State.withA_v3a h _ _

/-! ## Misaligned accesses (R106, R315) -/

section
variable {s : State} {w : Width} {a : Word} (ha : aligned w a = false)
include ha

/-- A misaligned access that no trigger matches raises the exception of its kind. -/
theorem State.checkAccess_misaligned {k : Access} (hf : s.firedTrigger k a = none) :
    s.checkAccess k w a = .raise (misalignedExc k a) := by
  simp only [State.checkAccess, hf, ha, if_true]

theorem State.loadInstr_misaligned (hf : s.firedTrigger .load a = none) (ext : Word → Word) (rd : Reg) (len : Word) :
    s.loadInstr w ext rd a len = s.raiseExc (.loadAddressMisaligned a) := by
  rw [State.loadInstr, State.loadData, State.checkAccess_misaligned ha hf]
  rfl

theorem State.storeInstr_misaligned (hf : s.firedTrigger .store a = none) (v len : Word) :
    s.storeInstr w a v len = s.raiseExc (.storeAddressMisaligned a) := by
  rw [State.storeInstr, State.storeData, State.checkAccess_misaligned ha hf]
  rfl

end

theorem State.amoInstr_misaligned {s : State} {rs1 : Reg} (ha : aligned .word (s.readReg rs1) = false)
    (hf : s.firedTrigger .amo (s.readReg rs1) = none) (f : Word → Word → Word) (rd rs2 : Reg) :
    s.amoInstr f rd rs2 rs1 = s.raiseExc (.storeAddressMisaligned (s.readReg rs1)) := by
  rw [State.amoInstr, State.amoData, State.checkAccess_misaligned ha hf]
  rfl

/-- Settles O15: each form is the common load, store or atomic at its own address, which the check of alignment ends. -/
theorem misalignedAccessesTrap : Obligations.MisalignedAccessesTrap := by
  intro s aq rl rd rs1 rs2 d e imm u v hs a c p x
  have compact : s.compactAddr e u = c := s.compactAddr_eq e u
  have stack : s.stackAddr v = p := s.stackAddr_eq v
  refine ⟨fun h hf => ⟨?_, ?_⟩, fun h hf => ?_, fun h hf => ?_, fun h hf => ?_, fun h hf => ?_, fun h hf => ?_,
    fun h hf => ?_, fun h hf => ?_, fun h hm => ⟨?_, ?_⟩⟩
  · exact .of_raiseExc hs (State.loadInstr_misaligned (misaligned_half h) hf _ _ _)
  · exact .of_raiseExc hs (State.loadInstr_misaligned (misaligned_half h) hf _ _ _)
  · exact .of_raiseExc hs (State.loadInstr_misaligned (misaligned_word h) hf _ _ _)
  · rw [← compact] at h hf ⊢
    exact .of_raiseExc hs (State.loadInstr_misaligned (misaligned_word h) hf _ _ _)
  · rw [← stack] at h hf ⊢
    exact .of_raiseExc hs (State.loadInstr_misaligned (misaligned_word h) hf _ _ _)
  · exact .of_raiseExc hs (State.storeInstr_misaligned (misaligned_half h) hf _ _)
  · exact .of_raiseExc hs (State.storeInstr_misaligned (misaligned_word h) hf _ _)
  · rw [← compact] at h hf ⊢
    exact .of_raiseExc hs (State.storeInstr_misaligned (misaligned_word h) hf _ _)
  · rw [← stack] at h hf ⊢
    exact .of_raiseExc hs (State.storeInstr_misaligned (misaligned_word h) hf _ _)
  · refine .of_raiseExc hs ?_
    rw [exec_lrW_v3a hm, State.loadData,
      State.checkAccess_misaligned (misaligned_word h) (State.firedTrigger_v3a hm _ _)]
    rfl
  · rw [List.forall_mem_cons]
    refine ⟨.of_raiseExc hs ?_, fun i hi => ?_⟩
    · exact (State.withA_v3a hm _ _).trans (if_pos (misaligned_word h))
    · obtain ⟨f, hf⟩ := exec_amoForms hm aq rl rd rs2 rs1 i hi
      exact .of_raiseExc hs
        (hf.trans (State.amoInstr_misaligned (misaligned_word h) (State.firedTrigger_v3a hm _ _) f rd rs2))

/-! ## Access errors (R115, R116, R152, D8) -/

/-- An access that the PMP denies, or that it allows at an address that holds nothing (R115, R116). -/
def AccessFails (s : State) (k : Access) (a : Word) : Prop :=
  s.firedTrigger k a = none ∧ (s.pmpAllows k a = false ∨ s.target a = .unmapped)

/-- Without a PMP only an address that holds nothing fails. -/
theorem AccessFails.of_unmapped_v3a {s : State} {a : Word} (hm : s.cfg.model = .v3a) (h : s.target a = .unmapped)
    (k : Access) : AccessFails s k a :=
  ⟨State.firedTrigger_v3a hm k a, .inr h⟩

/-- What an address reaches depends on the parameters alone (R112). -/
theorem State.target_congr {s t : State} (h : t.cfg = s.cfg) (a : Word) : t.target a = s.target a := by
  unfold State.target State.inDebugWindow
  rw [h]

/-- Outside debug mode an access error ends the run (D8). -/
theorem State.run_fault {α : Type} {s : State} (hs : s.dbg = .running) {r : Res α} {f : Fault} (hr : r = .fault f)
    (k : α → State → Outcome) : s.run r k = .fault f := by
  rw [hr]
  exact if_neg (by rw [hs]; decide)

section
variable {s : State} {w : Width} {a : Word} (ha : aligned w a = true)
include ha

/-- The checks of an access that fails: they end in its fault, or they pass and nothing is there. -/
theorem AccessFails.checkAccess {k : Access} (h : AccessFails s k a) :
    s.checkAccess k w a = .fault (accessFault k a) ∨
      (s.checkAccess k w a = .ok () s ∧ s.target a = .unmapped) := by
  obtain ⟨hf, hd⟩ := h
  cases hp : s.pmpAllows k a with
  | false => exact .inl (by simp [State.checkAccess, hf, ha, hp])
  | true => exact .inr ⟨State.checkAccess_ok hf ha hp, hd.resolve_left (by simp [hp])⟩

theorem AccessFails.loadData (h : AccessFails s .load a) : s.loadData w a = .fault (.loadAccess a) := by
  rcases h.checkAccess ha with hc | ⟨hc, ht⟩
  · rw [State.loadData, hc]
    rfl
  · simp only [State.loadData, hc, Res.bind, State.readTarget, ht]

/-- A store that fails does so whatever state it would be performed on, for the map is the parameters'. -/
theorem AccessFails.storeData (h : AccessFails s .store a) (v : Word) {done : State} (hd : done.cfg = s.cfg) :
    s.storeData w a v done = .fault (.storeAccess a) := by
  rcases h.checkAccess ha with hc | ⟨hc, ht⟩
  · rw [State.storeData, hc]
    rfl
  · have same : done.target a = .unmapped := (State.target_congr hd a).trans ht
    simp only [State.storeData, hc, Res.bind, State.writeTarget, same]

variable (hs : s.dbg = .running)
include hs

theorem AccessFails.loadInstr (h : AccessFails s .load a) (ext : Word → Word) (rd : Reg) (len : Word) :
    s.loadInstr w ext rd a len = .fault (.loadAccess a) :=
  State.run_fault hs (h.loadData ha) _

theorem AccessFails.storeInstr (h : AccessFails s .store a) (v len : Word) :
    s.storeInstr w a v len = .fault (.storeAccess a) :=
  State.run_fault hs (h.storeData ha v (done := s.advance len) rfl) _

end

/-- The read of an AMO at an address that holds nothing has the store's code (R315). -/
theorem AccessFails.amoInstr {s : State} {rs1 : Reg} (hs : s.dbg = .running)
    (ha : aligned .word (s.readReg rs1) = true) (h : AccessFails s .amo (s.readReg rs1)) (f : Word → Word → Word)
    (rd rs2 : Reg) : s.amoInstr f rd rs2 rs1 = .fault (.storeAccess (s.readReg rs1)) := by
  refine State.run_fault hs ?_ _
  rcases h.checkAccess ha with hc | ⟨hc, ht⟩
  · rw [State.amoData, hc]
    rfl
  · simp only [State.amoData, hc, Res.bind, State.readTarget, ht, Res.asStore]

/-- With a certain reservation of the address `sc.w` makes its store, and fails as that does (R301, R304). -/
theorem AccessFails.scW {s : State} {rs1 : Reg} (hm : s.cfg.model = .v3a) (hs : s.dbg = .running)
    (ha : aligned .word (s.readReg rs1) = true) (h : AccessFails s .store (s.readReg rs1))
    (hr : s.resv = some ⟨s.readReg rs1, true⟩) (aq rl : Bool) (rd rs2 : Reg) :
    exec (.scW aq rl rd rs2 rs1) s = .fault (.storeAccess (s.readReg rs1)) := by
  have succeeds : s.scOutcome (s.readReg rs1) = (true, s) := by simp [State.scOutcome, hr]
  refine (State.withA_v3a hm _ _).trans ?_
  rw [if_neg (by rw [ha]; decide), succeeds, if_pos rfl]
  exact State.run_fault hs (h.storeData ha _ (by simp [State.scDone])) _

/-- Settles O16: each form is the common load, store or atomic at its own address, whose check or target fails. -/
theorem accessErrorsEndTheRun : Obligations.AccessErrorsEndTheRun := by
  intro s aq rl rd rs1 rs2 d e imm u v hs a c p x fails
  have compact : s.compactAddr e u = c := s.compactAddr_eq e u
  have stack : s.stackAddr v = p := s.stackAddr_eq v
  have load : ∀ {w y}, aligned w y = true → AccessFails s .load y → ∀ ext rd len,
      s.loadInstr w ext rd y len = .fault (.loadAccess y) := fun ha h => h.loadInstr ha hs
  have store : ∀ {w y}, aligned w y = true → AccessFails s .store y → ∀ z len,
      s.storeInstr w y z len = .fault (.storeAccess y) := fun ha h => h.storeInstr ha hs
  refine ⟨fun h => ⟨load rfl h _ _ _, load rfl h _ _ _, fun h2 => ⟨?_, ?_⟩, fun h4 => ?_⟩, fun h h4 => ?_,
    fun h h4 => ?_, fun h => ⟨store rfl h _ _, fun h2 => ?_, fun h4 => ?_⟩, fun h h4 => ?_, fun h h4 => ?_,
    fun hm h4 ht => ⟨?_, fun hr => ?_, fun i hi => ?_⟩⟩
  · exact load (aligned_half_iff.mpr h2) h _ _ _
  · exact load (aligned_half_iff.mpr h2) h _ _ _
  · exact load (aligned_word_iff.mpr h4) h _ _ _
  · rw [← compact] at h h4 ⊢
    exact load (aligned_word_iff.mpr h4) h _ _ _
  · rw [← stack] at h h4 ⊢
    exact load (aligned_word_iff.mpr h4) h _ _ _
  · exact store (aligned_half_iff.mpr h2) h _ _
  · exact store (aligned_word_iff.mpr h4) h _ _
  · rw [← compact] at h h4 ⊢
    exact store (aligned_word_iff.mpr h4) h _ _
  · rw [← stack] at h h4 ⊢
    exact store (aligned_word_iff.mpr h4) h _ _
  · rw [exec_lrW_v3a hm]
    exact State.run_fault hs ((AccessFails.of_unmapped_v3a hm ht _).loadData (aligned_word_iff.mpr h4)) _
  · exact (AccessFails.of_unmapped_v3a hm ht _).scW hm hs (aligned_word_iff.mpr h4) hr aq rl rd rs2
  · obtain ⟨f, hf⟩ := exec_amoForms hm aq rl rd rs2 rs1 i hi
    exact hf.trans ((AccessFails.of_unmapped_v3a hm ht _).amoInstr hs (aligned_word_iff.mpr h4) f rd rs2)

end Sys2Proof.Machine

/-! SUPPORT. Fetching, and the step that runs, refuses or traps on what it fetched (spec/20_memory.md R104, R111, R124,
spec/30_encoding.md R190, spec/60_exceptions.md R424). -/

namespace Sys2Proof.Machine

/-! ## Decoding what was fetched (R170) -/

/-- A halfword needs no byte after it. -/
theorem decode_half {b0 : Byte} (h : isLong b0 = false) (b1 : Byte) (rest : List Byte) :
    decode (b0 :: b1 :: rest) = (decodeHalf (b1 ++ b0)).map fun i => (i, 2) :=
  if_neg (by rw [h]; decide)

/-- A word is accepted with its length, or rejected as a word. -/
theorem decode_long {b0 : Byte} (h : isLong b0 = true) (b1 b2 b3 : Byte) (rest : List Byte) :
    (∃ i, decode (b0 :: b1 :: b2 :: b3 :: rest) = .ok (i, 4)) ∨
      (∃ w, decode (b0 :: b1 :: b2 :: b3 :: rest) = .error (.vendorWord w)) ∨
      ∃ w, decode (b0 :: b1 :: b2 :: b3 :: rest) = .error (.illegalWord w) := by
  rw [decode, if_pos h]
  unfold decodeWord
  split
  · exact .inl ⟨_, rfl⟩
  · split
    · exact .inr (.inl ⟨_, rfl⟩)
    · exact .inr (.inr ⟨_, rfl⟩)

/-- The meaning of fetched bytes is that of what they decode to. -/
theorem State.runBytes_congr (s : State) {b c : List Byte} (h : decode b = decode c) : s.runBytes b = s.runBytes c := by
  unfold State.runBytes
  rw [h]

/-! ## Fetching (R111, R124) -/

theorem State.fetchByte_of_unrecorded {s : State} {a : Word} (h : ∀ c ∈ s.stale, c.1 ≠ a.toNat) :
    s.fetchByte a = (Memory.read s.mem a.toNat, s) := by
  have none_recorded : s.stale.filter (fun c => c.1 == a.toNat) = [] :=
    List.filter_eq_nil_iff.mpr fun c hc => by simpa using h c hc
  simp only [State.fetchByte, none_recorded]

theorem Fetchable.fetchParcel {s : State} {a : Word} (h : Fetchable s a) :
    s.fetchParcel a = .ok (Memory.read s.mem a.toNat, Memory.read s.mem (a + 1).toNat) s := by
  obtain ⟨hp, ht, hs⟩ := h
  have low := State.fetchByte_of_unrecorded fun c hc => (hs c hc).1
  have high := State.fetchByte_of_unrecorded fun c hc => (hs c hc).2
  simp only [State.fetchParcel, hp, Bool.true_eq_false, if_false, ht, low, high]

theorem FetchFails.fetchParcel {s : State} {a : Word} (h : FetchFails s a) :
    s.fetchParcel a = .raise (.instructionAccessFault a) := by
  unfold State.fetchParcel
  rcases h with hp | ⟨hm, hc⟩
  · exact if_pos hp
  · split
    · rfl
    · split
      · exact absurd ‹_› hm
      · exact absurd ‹_› hc
      · rfl

section
variable {s : State} (h : Fetchable s s.pc)
include h

/-- The parcels that can be fetched decode as the bytes in memory at the pc do. -/
theorem Fetchable.fetch (h2 : isLong (Memory.read s.mem s.pc.toNat) = true → Fetchable s (s.pc + 2)) :
    ∃ bytes, s.fetch = .ok bytes s ∧ decode bytes = decode (codeBytes s) := by
  simp only [State.fetch, h.fetchParcel, Res.bind]
  cases hl : isLong (Memory.read s.mem s.pc.toNat) with
  | false =>
    refine ⟨_, rfl, ?_⟩
    rw [codeBytes, decode_half hl, decode_half hl]
  | true =>
    have third : s.pc + 2 + 1 = s.pc + 3 := BitVec.add_assoc _ _ _
    simp only [if_true, (h2 hl).fetchParcel, third]
    exact ⟨_, rfl, rfl⟩

/-- The fault of the second parcel is the fetch's. -/
theorem Fetchable.fetch_fails (hl : isLong (Memory.read s.mem s.pc.toNat) = true) (h2 : FetchFails s (s.pc + 2)) :
    s.fetch = .raise (.instructionAccessFault (s.pc + 2)) := by
  simp only [State.fetch, h.fetchParcel, Res.bind, hl, if_true, h2.fetchParcel]

end

/-- The fault of the first parcel is the fetch's. -/
theorem FetchFails.fetch {s : State} (h : FetchFails s s.pc) : s.fetch = .raise (.instructionAccessFault s.pc) := by
  rw [State.fetch, h.fetchParcel]
  rfl

/-! ## Undisturbed steps (R425) -/

section
variable {s : State} (h : Undisturbed s)
include h

theorem Undisturbed.step_eq : step s = mapNext State.endStep (s.run s.fetch fun bytes s' => s'.runBytes bytes) := by
  obtain ⟨hq, hf⟩ := h
  rw [hq.step_eq, State.instrCycle, hf]

/-- An undisturbed step runs the bytes in memory at the pc. -/
theorem Undisturbed.step_runs (h1 : Fetchable s s.pc)
    (h2 : isLong (Memory.read s.mem s.pc.toNat) = true → Fetchable s (s.pc + 2)) :
    step s = mapNext State.endStep (s.runBytes (codeBytes s)) := by
  obtain ⟨bytes, hb, hd⟩ := h1.fetch h2
  rw [h.step_eq, hb, State.run, s.runBytes_congr hd]

/-- The same where both parcels can be fetched, whether or not there is a second one. -/
theorem Undisturbed.step_runs_word (hc : CodeFetchable s 4) :
    step s = mapNext State.endStep (s.runBytes (codeBytes s)) :=
  h.step_runs hc.1 fun _ => hc.2 rfl

/-- The same where the bytes are no word. -/
theorem Undisturbed.step_runs_half (hc : CodeFetchable s 2)
    (hn : ∀ i, decode (codeBytes s) ≠ .ok (i, 4)) (hv : ∀ w, decode (codeBytes s) ≠ .error (.vendorWord w))
    (hi : ∀ w, decode (codeBytes s) ≠ .error (.illegalWord w)) :
    step s = mapNext State.endStep (s.runBytes (codeBytes s)) := by
  refine h.step_runs hc.1 fun hl => ?_
  rcases decode_long hl _ _ _ [] with ⟨i, hd⟩ | ⟨w, hd⟩ | ⟨w, hd⟩
  · exact absurd hd (hn i)
  · exact absurd hd (hv w)
  · exact absurd hd (hi w)

/-- A step whose instruction raises an exception takes its trap. -/
theorem Undisturbed.stepTraps {e : Exc} (hs : step s = mapNext State.endStep (s.raiseExc e)) :
    StepTraps s (excCode e) (excTval e) (excSlot s.cfg.model e) := by
  intro entry hc
  refine ⟨_, ?_, s.enterTrap_entered _ _ _ entry⟩
  rw [hs, State.raiseExc_enters h.1.1 hc]
  rfl

end

/-- Settles O4: what can be fetched decodes as memory does, and its meaning is that of the instruction. -/
theorem stepRunsInstruction : Obligations.StepRunsInstruction := by
  intro s i n hu hc hd
  have meaning : s.runBytes (codeBytes s) = exec i s := by simp only [State.runBytes, hd]
  rw [← meaning]
  refine hu.step_runs hc.1 fun hl => hc.2 ?_
  rcases decode_long hl _ _ _ [] with ⟨j, hj⟩ | ⟨w, hj⟩ | ⟨w, hj⟩ <;> cases hd.symm.trans hj
  rfl

/-! ## What is no instruction (R190, R402, R406) -/

theorem State.vendor_v3a {s : State} (h : s.cfg.model = .v3a) (bits len : Word) :
    s.vendor bits len = s.raiseExc (.illegalInstruction bits) :=
  if_pos h

theorem State.vendor_unlisted {s : State} (h : s.cfg.model ≠ .v3a) {bits : Word}
    (hx : s.cfg.xwDecode.lookup bits = none) (len : Word) : s.vendor bits len = .refused (.vendorEncoding bits) := by
  simp only [State.vendor, if_neg h, hx]

/-- Illegal encodings and failing fetches go through slot 3 on every model (R431). -/
theorem excSlot_illegalInstruction (m : Model) (w : Word) : excSlot m (.illegalInstruction w) = 3 := ite_self _
theorem excSlot_instructionAccessFault (m : Model) (a : Word) : excSlot m (.instructionAccessFault a) = 3 := ite_self _

section
variable {s : State} (h : Undisturbed s)
include h

theorem Undisturbed.traps_illegal {w : Word}
    (hs : step s = mapNext State.endStep (s.raiseExc (.illegalInstruction w))) : StepTraps s 2 w 3 := by
  rw [← excSlot_illegalInstruction s.cfg.model w]
  exact h.stepTraps hs

theorem Undisturbed.traps_fault {a : Word} (hf : s.fetch = .raise (.instructionAccessFault a)) : StepTraps s 1 a 3 := by
  rw [← excSlot_instructionAccessFault s.cfg.model a]
  refine h.stepTraps ?_
  rw [h.step_eq, hf]
  rfl

end

/-- Settles O5: the step runs the bytes at the pc, whose meaning is the exception or the refusal, or the fetch
raises its fault. -/
theorem stepTrapsAtFetch : Obligations.StepTrapsAtFetch := by
  intro s hu
  have half : ∀ {e}, CodeFetchable s 2 → decode (codeBytes s) = .error e → (∀ w, e ≠ .vendorWord w) →
      (∀ w, e ≠ .illegalWord w) → step s = mapNext State.endStep (s.runBytes (codeBytes s)) := by
    intro e hc hd hv hi
    refine hu.step_runs_half hc (fun i => ?_) (fun w => ?_) (fun w => ?_) <;> rw [hd]
    · exact nofun
    · exact fun he => hv w (Except.error.inj he)
    · exact fun he => hi w (Except.error.inj he)
  refine ⟨fun w hc hd => ?_, fun p hc hd => ?_, fun w hc hd hm hx => ?_, fun p hc hd hm hx => ?_,
    fun hf => hu.traps_fault hf.fetch, fun h1 hl h2 => hu.traps_fault (h1.fetch_fails (beq_iff_eq.mpr hl) h2)⟩
  · refine hu.traps_illegal ?_
    rw [hu.step_runs_word hc]
    rcases hd with hd | ⟨hd, hm⟩
    · simp only [State.runBytes, hd]
    · simp only [State.runBytes, hd, State.vendor_v3a hm]
  · refine hu.traps_illegal ?_
    rcases hd with hd | ⟨hd, hm⟩
    · rw [half hc hd (fun _ => nofun) (fun _ => nofun)]
      simp only [State.runBytes, hd, zext32]
    · rw [half hc hd (fun _ => nofun) (fun _ => nofun)]
      simp only [State.runBytes, hd, State.vendor_v3a hm, zext32]
  · rw [hu.step_runs_word hc]
    simp only [State.runBytes, hd, State.vendor_unlisted hm hx, mapNext]
  · have unlisted : s.cfg.xwDecode.lookup (zext32 p) = none := hx
    rw [half hc hd (fun _ => nofun) (fun _ => nofun)]
    simp only [State.runBytes, hd, State.vendor_unlisted hm unlisted, mapNext]
    rfl

end Sys2Proof.Machine

/-! SUPPORT. Where a trap enters: the slot's address, the vector table and the VTF channels (spec/60_exceptions.md R431,
R450). -/

namespace Sys2Proof.Machine

/-! ## The vector table (R431) -/

/-- The base of `mtvec`, and with MODE0 four bytes for each slot. -/
theorem State.vectorAddr_eq (s : State) (slot : Nat) : s.vectorAddr slot =
    (s.csr.mtvec &&& 0xFFFFFC00) + (if s.csr.mtvec.getLsbD 0 then BitVec.ofNat 32 (4 * slot) else 0) := by
  unfold State.vectorAddr mtvecBase
  split
  · rfl
  · exact (BitVec.add_zero _).symm

theorem State.vectorIndirect_eq_false {s : State} (h : s.cfg.model = .v3a ∨ s.csr.mtvec.getLsbD 1 = false) :
    s.vectorIndirect = false := by
  rw [State.vectorIndirect, Bool.and_eq_false_iff, decide_eq_false_iff_not, not_not]
  exact h

theorem State.vectorIndirect_eq_true {s : State} (hm : s.cfg.model ≠ .v3a) (h : s.csr.mtvec.getLsbD 1 = true) :
    s.vectorIndirect = true := by
  rw [State.vectorIndirect, decide_eq_true hm, h]
  rfl

/-- Where nothing backs the word of the table there is no entry. -/
theorem State.tableEntry_unbacked {s : State} {slot : Nat} (hi : s.vectorIndirect = true)
    (hm : s.target (s.vectorAddr slot) ≠ .memory) (hc : s.target (s.vectorAddr slot) ≠ .chipDevice) :
    s.tableEntry slot = .error (.fault (.vectorRead (s.vectorAddr slot))) := by
  rw [State.tableEntry, if_pos hi, State.vectorRead]
  split
  · exact absurd ‹_› hm
  · exact absurd ‹_› hc
  · rfl

/-- What becomes of a trap through a slot: it enters at the slot's address or at the word memory holds there, or the run
ends with the fault of the table read. -/
def GoesThrough (s : State) (o : Outcome) (slot : Nat) : Prop :=
  (s.cfg.model = .v3a ∨ s.csr.mtvec.getLsbD 1 = false → ∃ t, o = .next t ∧ t.pc = s.vectorAddr slot) ∧
    (s.cfg.model ≠ .v3a → s.csr.mtvec.getLsbD 1 = true → s.target (s.vectorAddr slot) = .memory →
      (s.cfg.model = .v3c → pmpCheck s.csr .machine .load (s.vectorAddr slot).toNat = true) →
      ∃ t, o = .next t ∧ t.pc = wordAt s (s.vectorAddr slot) &&& 0xFFFFFFFE) ∧
    (s.cfg.model ≠ .v3a → s.csr.mtvec.getLsbD 1 = true → s.target (s.vectorAddr slot) ≠ .memory →
      s.target (s.vectorAddr slot) ≠ .chipDevice → o = .fault (.vectorRead (s.vectorAddr slot)))

section
variable {s : State} (hl : s.level < 4) (cause tval : Word) (slot : Nat)
include hl

theorem State.takeTrap_enters {entry : Except Outcome (Word × State)} {a : Word} (h : entry = .ok (a, s)) :
    ∃ t, s.takeTrap cause tval slot entry = .next t ∧ t.pc = a := by
  subst h
  exact ⟨_, if_neg (Nat.not_le.mpr hl), rfl⟩

theorem State.takeTrap_fails {entry : Except Outcome (Word × State)} {o : Outcome} (h : entry = .error o) :
    s.takeTrap cause tval slot entry = o := by
  subst h
  exact if_neg (Nat.not_le.mpr hl)

/-- A trap whose entry is the table's goes through its slot. -/
theorem State.takeTrap_goesThrough : GoesThrough s (s.takeTrap cause tval slot (s.tableEntry slot)) slot := by
  refine ⟨fun h => ?_, fun hm h1 ht hp => ?_, fun hm h1 ht hc => ?_⟩
  · have direct : EntryOf s slot (s.vectorAddr slot) := .inl ⟨State.vectorIndirect_eq_false h, rfl⟩
    exact State.takeTrap_enters hl _ _ _ direct.tableEntry
  · have word : EntryOf s slot (wordAt s (s.vectorAddr slot) &&& 0xFFFFFFFE) :=
      .inr ⟨State.vectorIndirect_eq_true hm h1, ht, hp, rfl⟩
    exact State.takeTrap_enters hl _ _ _ word.tableEntry
  · exact State.takeTrap_fails hl _ _ _ (State.tableEntry_unbacked (State.vectorIndirect_eq_true hm h1) ht hc)

end

/-! ## The VTF channels (R450) -/

/-- A byte is the number it holds, for every interrupt number. -/
theorem byte_beq_iff {b : Byte} {n : Nat} (hn : n < 256) : (b == BitVec.ofNat 8 n) = decide (b.toNat = n) := by
  rw [beq_eq_decide, decide_eq_decide, ← BitVec.toNat_inj, BitVec.toNat_ofNat, Nat.mod_eq_of_lt hn]

section
variable {s : State} {n : Nat} (k : Fin 4)

theorem vtfaddrr_getElem? : s.pfic.vtfaddrr[k.val]? = some s.pfic.vtfaddrr[k] := Vector.getElem?_eq_getElem k.isLt

theorem State.vtfFor_v3a (hm : s.cfg.model = .v3a) (hn : n < 256) (h0 : n ≠ 0) :
    s.vtfFor n k = decide ((s.pfic.vtfaddrr[k].extractLsb' 24 8).toNat = n) := by
  simp only [State.vtfFor, vtfaddrr_getElem?, if_pos hm, byte_beq_iff hn, bne_iff_ne.mpr h0, Bool.and_true]

theorem State.vtfFor_v3bc (hm : s.cfg.model ≠ .v3a) (hn : n < 256) : s.vtfFor n k =
    (s.pfic.vtfaddrr[k].getLsbD 0 && decide ((s.pfic.vtfidr.extractLsb' (8 * k.val) 8).toNat = n)) := by
  simp only [State.vtfFor, vtfaddrr_getElem?, if_neg hm, byte_beq_iff hn]

theorem State.vtfTarget_v3a (hm : s.cfg.model = .v3a) : s.vtfTarget k =
    ((s.pfic.vtfbaddrr &&& 0xF0000000) ||| (s.pfic.vtfaddrr[k] &&& 0x000FFFFF)) &&& 0xFFFFFFFE := by
  simp only [State.vtfTarget, vtfaddrr_getElem?, if_pos hm, clearBit0]

theorem State.vtfTarget_v3bc (hm : s.cfg.model ≠ .v3a) : s.vtfTarget k = s.pfic.vtfaddrr[k] &&& 0xFFFFFFFE := by
  simp only [State.vtfTarget, vtfaddrr_getElem?, if_neg hm, clearBit0]

/-- The lowest channel that is for the interrupt gives its entry (R450, D21). -/
theorem State.interruptEntry_vtf (hk : s.vtfFor n k = true) (hj : ∀ j : Fin 4, j < k → s.vtfFor n j = false) :
    s.interruptEntry n = .ok (s.vtfTarget k, s) := by
  have lowest : (List.range 4).find? (s.vtfFor n) = some k.val := by
    rw [List.find?_range_eq_some]
    refine ⟨hk, List.mem_range.mpr k.isLt, fun j hlt => ?_⟩
    rw [hj ⟨j, hlt.trans k.isLt⟩ hlt]
    rfl
  have channels : [0, 1, 2, 3].find? (s.vtfFor n) = some k.val := lowest
  simp only [State.interruptEntry, channels]

end

/-- Without a channel the interrupt goes through the table. -/
theorem State.interruptEntry_table {s : State} {n : Nat} (h : ∀ k, s.vtfFor n k = false) :
    s.interruptEntry n = s.tableEntry n := by
  have no_channel : [0, 1, 2, 3].find? (s.vtfFor n) = none := List.find?_eq_none.mpr fun k _ => by simp [h k]
  simp only [State.interruptEntry, no_channel]

/-- Settles O36: the entry is the table's, through the exception's slot or the interrupt's number, or the lowest VTF
channel's. -/
theorem vectoredEntries : Obligations.VectoredEntries := by
  intro s n e hl hn a slot goes
  have addr : a = s.vectorAddr := funext fun k => (s.vectorAddr_eq k).symm
  have through : ∀ {o k}, GoesThrough s o k → goes o k := by
    intro o k h
    simp only [goes, addr]
    exact h
  have slot_eq : excSlot s.cfg.model e = slot := by cases e <;> rfl
  refine ⟨through ?_, fun h => through ?_, fun k hm h0 hi hlow => ?_, fun k hm h0 hi hlow => ?_⟩
  · rw [← slot_eq]
    exact State.takeTrap_goesThrough hl _ _ _
  · rw [State.takeInterrupt, State.interruptEntry_table h]
    exact State.takeTrap_goesThrough hl _ _ _
  · rw [← State.vtfTarget_v3bc k hm]
    refine State.takeTrap_enters hl _ _ _ (State.interruptEntry_vtf k ?_ fun j hj => ?_)
    · rw [State.vtfFor_v3bc k hm hn, h0, decide_eq_true hi]
      rfl
    · rw [State.vtfFor_v3bc j hm hn]
      rcases hlow j hj with h | h
      · rw [h]
        rfl
      · rw [decide_eq_false h, Bool.and_false]
  · rw [← State.vtfTarget_v3a k hm]
    refine State.takeTrap_enters hl _ _ _ (State.interruptEntry_vtf k ?_ fun j hj => ?_)
    · rw [State.vtfFor_v3a k hm hn h0, decide_eq_true hi]
    · rw [State.vtfFor_v3a j hm hn h0, decide_eq_false (hlow j hj)]

end Sys2Proof.Machine

/-! SUPPORT. The access-memory command of the debug module and the program buffer (spec/62_systick_power_debug.md R565
to R570). -/

namespace Sys2Proof.Machine

/-! ## Commands (R565, R568) -/

/-- A command that the host writes is run: a debugger, an active module, a halted core and no earlier error (R565). -/
structure CommandReady (s : State) : Prop where
  debugger : s.cfg.debugger = true
  active : s.dm.dmactive = true
  noError : s.dm.cmderr = 0
  halted : s.dbg = .halted

/-- The state with a command in the command register. -/
def State.commanded (s : State) (c : Word) : State := s.setDm { s.dm with command := c }

@[simp] theorem State.commanded_dm (s : State) (c : Word) : (s.commanded c).dm = { s.dm with command := c } := rfl
@[simp] theorem State.commanded_cfg (s : State) (c : Word) : (s.commanded c).cfg = s.cfg := rfl
@[simp] theorem State.commanded_dbg (s : State) (c : Word) : (s.commanded c).dbg = s.dbg := rfl
@[simp] theorem State.commanded_target (s : State) (c a : Word) : (s.commanded c).target a = s.target a :=
  State.target_congr (State.commanded_cfg s c) a

/-- The fields of an access-memory command without postexec (R568). -/
structure MemoryCommand (c : Word) (w : Width) (isWrite : Bool) : Prop where
  kind : c.extractLsb' 24 8 = 2
  width : commandWidth c = some w
  noPostexec : c.getLsbD 18 = false
  direction : c.getLsbD 16 = isWrite

/-- Going on with nothing more to do. -/
theorem Res.bind_done (r : Res Unit) : (r.bind fun _ s' => .ok () s') = r := by
  cases r <;> rfl

theorem State.setCmderr_of_none {s : State} (h : s.dm.cmderr = 0) (e : BitVec 3) :
    s.setCmderr e = s.setDm { s.dm with cmderr := e } := by
  rw [State.setCmderr, if_pos h]

theorem State.postexec_of_clear {s : State} (h : s.dm.command.getLsbD 18 = false) : s.postexec = s :=
  if_neg (by rw [h]; decide)

/-- The postincrement changes data1 and nothing else (R568). -/
theorem State.nextAddress_eq (s : State) (w : Width) : s.nextAddress w = s.setDm { s.dm with
    data1 := if s.dm.command.getLsbD 19 then s.dm.data1 + BitVec.ofNat 32 (widthBytes w) else s.dm.data1 } := by
  unfold State.nextAddress
  split <;> rfl

/-- After a memory write without postexec: the postincrement, and the end of a reservation of the word (R568, R301). -/
theorem MemoryCommand.memoryDone_eq {c : Word} {w : Width} (hc : MemoryCommand c w true) {u : State}
    (hu : u.dm.command = c) (a : Word) : u.memoryDone w a = { u with
      resv := dropWord u.resv a
      dm := { u.dm with
        data1 := if c.getLsbD 19 then u.dm.data1 + BitVec.ofNat 32 (widthBytes w) else u.dm.data1 } } := by
  have clear : (u.nextAddress w).dm.command.getLsbD 18 = false := by
    rw [State.nextAddress_eq, State.setDm_dm, hu]
    exact hc.noPostexec
  rw [State.memoryDone, State.postexec_of_clear clear, State.nextAddress_eq, hu]
  rfl

section
variable {s : State} (h : CommandReady s)
include h

/-- Writing the command register runs the command. -/
theorem CommandReady.hostAccess (c : Word) : s.hostAccess (.write 0x17 c) = (s.commanded c).runCommand := by
  obtain ⟨hd, ha, he, hh⟩ := h
  have idle : s.dmBusy = false := by rw [State.dmBusy, hh]; rfl
  have written : s.dmWrite .command c = (s.commanded c).runCommand := if_neg (not_not.mpr he)
  rw [State.hostAccess, if_neg (by rw [hd]; decide)]
  show s.hostWrite .command c = _
  rw [State.hostWrite, ha, idle, Bool.not_true, Bool.false_and, Bool.false_and, if_neg Bool.false_ne_true,
    if_neg Bool.false_ne_true, written]
  exact Res.bind_done _

/-- A command of type 0 is the access-register command (R567). -/
theorem CommandReady.runs_register {c : Word} (hk : c.extractLsb' 24 8 = 0) :
    s.hostAccess (.write 0x17 c) = .ok () (s.commanded c).accessRegister := by
  rw [h.hostAccess]
  simp only [State.runCommand, State.commanded_dm, State.commanded_dbg, h.noError, h.halted, ne_eq, not_true_eq_false,
    if_false, hk]
  rfl

/-- A command of type 2 is the access-memory command (R568). -/
theorem CommandReady.runs_memory {c : Word} (hk : c.extractLsb' 24 8 = 2) :
    s.hostAccess (.write 0x17 c) = (s.commanded c).accessMemory := by
  rw [h.hostAccess]
  simp only [State.runCommand, State.commanded_dm, State.commanded_dbg, h.noError, h.halted, ne_eq, not_true_eq_false,
    if_false, hk]
  rfl

variable {c : Word} {w : Width} {isWrite : Bool} (hc : MemoryCommand c w isWrite)
include hc

/-- An error of a command is recorded, and nothing else happens (R565). -/
theorem CommandReady.records {e : BitVec 3} (he : (s.commanded c).accessMemory = .ok () ((s.commanded c).setCmderr e)) :
    s.hostAccess (.write 0x17 c) = .ok () { s with dm := { s.dm with command := c, cmderr := e } } := by
  rw [h.runs_memory hc.kind, he, State.setCmderr_of_none (by rw [State.commanded_dm]; exact h.noError)]
  rfl

/-- V3A has no access-memory command. -/
theorem CommandReady.memory_v3a (hm : s.cfg.model = .v3a) :
    s.hostAccess (.write 0x17 c) = .ok () { s with dm := { s.dm with command := c, cmderr := 2 } } :=
  h.records hc (if_pos hm)

variable (hm : s.cfg.model ≠ .v3a)
include hm

theorem CommandReady.misaligned (ha : aligned w s.dm.data1 = false) :
    s.hostAccess (.write 0x17 c) = .ok () { s with dm := { s.dm with command := c, cmderr := 3 } } := by
  have width : commandWidth (s.commanded c).dm.command = some w := hc.width
  have odd : aligned w (s.commanded c).dm.data1 = false := ha
  refine h.records hc ?_
  simp only [State.accessMemory, State.commanded_cfg, if_neg hm, width, odd, if_true]

variable (ha : aligned w s.dm.data1 = true)
include ha

/-- The transfer of an aligned command: a read, or a write. -/
theorem CommandReady.transfer : s.hostAccess (.write 0x17 c) =
    if isWrite then (s.commanded c).memoryWrite w
    else (s.commanded c).finishMemory ((s.commanded c).readTarget w s.dm.data1) fun v s' =>
      (((s'.narrow w v).2.setDm { (s'.narrow w v).2.dm with data0 := (s'.narrow w v).1 }).nextAddress w).postexec := by
  have width : commandWidth (s.commanded c).dm.command = some w := hc.width
  have even : ¬aligned w (s.commanded c).dm.data1 = false := by
    rw [Bool.not_eq_false]
    exact ha
  rw [h.runs_memory hc.kind, ← hc.direction]
  simp only [State.accessMemory, State.commanded_cfg, if_neg hm, width, if_neg even]
  rfl

end

/-! ## Reads -/

/-- Free bits above a value leave its bits as they are. -/
theorem extract_freed {n : Nat} (v : BitVec n) (hn : n ≤ 32) (x m : Word)
    (hm : m.extractLsb' 0 n = BitVec.allOnes n) (hx : (~~~m).extractLsb' 0 n = 0) :
    (v.zeroExtend 32 &&& m ||| x &&& ~~~m).extractLsb' 0 n = v := by
  rw [extract_update_old _ _ _ _ _ _ hm hx, extract_zeroExtend v hn]

section
variable {s : State} (h : CommandReady s) (hm : s.cfg.model ≠ .v3a) (ht : s.target s.dm.data1 = .memory)
include h hm ht

/-- A read of memory goes on with the value there. -/
theorem CommandReady.read {c : Word} {w : Width} (hc : MemoryCommand c w false) (ha : aligned w s.dm.data1 = true)
    {x : Word} {u : State} (hn : (s.commanded c).narrow w (Memory.load s.mem w s.dm.data1) = (x, u))
    (hp : u.dm.command.getLsbD 18 = false) :
    s.hostAccess (.write 0x17 c) = .ok () ((u.setDm { u.dm with data0 := x }).nextAddress w) := by
  have reached : (s.commanded c).readTarget w s.dm.data1 = .ok (Memory.load s.mem w s.dm.data1) (s.commanded c) :=
    State.readTarget_memory ((State.commanded_target s c _).trans ht) w
  have clear : ((u.setDm { u.dm with data0 := x }).nextAddress w).dm.command.getLsbD 18 = false := by
    rw [State.nextAddress_eq]
    exact hp
  rw [h.transfer hc hm ha, if_neg Bool.false_ne_true, reached, State.finishMemory]
  simp only [hn, State.postexec_of_clear clear]

/-- A read of a word leaves it in data0. -/
theorem CommandReady.read_word {c : Word} (hc : MemoryCommand c .word false) (h4 : s.dm.data1.toNat % 4 = 0) :
    s.hostAccess (.write 0x17 c) = .ok () { s with dm := { s.dm with
      command := c
      data0 := wordAt s s.dm.data1
      data1 := if c.getLsbD 19 then s.dm.data1 + 4 else s.dm.data1 } } := by
  rw [h.read hm ht hc (aligned_word_iff.mpr h4) (if_pos rfl) hc.noPostexec, State.nextAddress_eq]
  rfl

/-- A read of a byte or a halfword without postincrement leaves it in the low bits of data0. -/
theorem CommandReady.read_narrow {c : Word} {w : Width} (hc : MemoryCommand c w false)
    (ha : aligned w s.dm.data1 = true) (hn : w ≠ .word) (hi : c.getLsbD 19 = false) :
    s.hostAccess (.write 0x17 c) = .ok () { s with
      dm := { s.dm with
        command := c
        data0 := Memory.load s.mem w s.dm.data1 &&& widthMask w ||| s.free &&& ~~~widthMask w }
      freeIndex := s.freeIndex + 1 } := by
  rw [h.read hm ht hc ha (if_neg hn) hc.noPostexec, State.nextAddress,
    if_neg (by rw [Bool.not_eq_true]; exact hi)]
  rfl

end

/-! ## Writes -/

/-- The command writes some bytes at the address in data1 and leaves another word in data1 (R568). -/
def WritesByCommand (s : State) (c : Word) (bytes : List Byte) (next : Word) : Prop :=
  ∃ t, s.hostAccess (.write 0x17 c) = .ok () t ∧ WritesBytes s t s.dm.data1 bytes ∧
    KeepsOtherReservation s t s.dm.data1 ∧
    t = { s with
      mem := t.mem
      stale := t.stale
      resv := t.resv
      dm := { s.dm with command := c, data1 := next } }

/-- The end of a reservation after a write: one of another word stays (R301). -/
theorem State.dropWord_storedAt {s : State} {a : Word} (h : ∀ v, s.resv = some v → v.addr ≠ a &&& 0xFFFFFFFC) :
    dropWord (s.storedAt a).resv a = s.resv := by
  rw [s.storedAt_keeps a h, dropWord_of_other h]

section
variable {s : State} (h : CommandReady s) (hm : s.cfg.model ≠ .v3a)
include h hm

/-- The write of data0 where the command does not combine it with what is there. -/
theorem CommandReady.write {c : Word} {w : Width} (hc : MemoryCommand c w true) (ha : aligned w s.dm.data1 = true)
    (h15 : c.getLsbD 15 = false) : s.hostAccess (.write 0x17 c) =
      (s.commanded c).finishMemory ((s.commanded c).writeTarget w s.dm.data1 s.dm.data0) fun _ s' =>
        s'.memoryDone w s.dm.data1 := by
  have plain : ¬(s.commanded c).dm.command.getLsbD 15 = true := by
    rw [Bool.not_eq_true]
    exact h15
  rw [h.transfer hc hm ha, if_pos rfl, State.memoryWrite, if_neg plain]
  rfl

/-- The write of a word combined with the word that memory holds there. -/
theorem CommandReady.write_combined {c : Word} (hc : MemoryCommand c .word true)
    (ha : aligned .word s.dm.data1 = true) (ht : s.target s.dm.data1 = .memory) (h15 : c.getLsbD 15 = true) :
    s.hostAccess (.write 0x17 c) = (s.commanded c).finishMemory
      ((s.commanded c).writeTarget .word s.dm.data1
        (commandCombine (c.extractLsb' 14 2) (wordAt s s.dm.data1) s.dm.data0)) fun _ s' =>
        s'.memoryDone .word s.dm.data1 := by
  have combines : (s.commanded c).dm.command.getLsbD 15 = true := h15
  have reached : (s.commanded c).readTarget .word (s.commanded c).dm.data1 =
      .ok (wordAt s s.dm.data1) (s.commanded c) :=
    State.readTarget_memory ((State.commanded_target s c _).trans ht) .word
  rw [h.transfer hc hm ha, if_pos rfl, State.memoryWrite, if_pos combines, if_neg (not_not.mpr rfl), reached]
  rfl

end

/-- A write of a command that reaches memory changes the bytes of its width, data1 by the postincrement, and a
reservation of the word. -/
theorem WritesByCommand.of_finish {s : State} {c v : Word} {w : Width} (hw : MemoryCanonical s)
    (ht : s.target s.dm.data1 = .memory) (hc : MemoryCommand c w true)
    (hs : s.hostAccess (.write 0x17 c) =
      (s.commanded c).finishMemory ((s.commanded c).writeTarget w s.dm.data1 v) fun _ s' =>
        s'.memoryDone w s.dm.data1) :
    WritesByCommand s c (lowBytes w v)
      (if c.getLsbD 19 then s.dm.data1 + BitVec.ofNat 32 (widthBytes w) else s.dm.data1) := by
  have reached : (s.commanded c).writeTarget w s.dm.data1 v = .ok () ((s.commanded c).storeMemory w s.dm.data1 v) :=
    State.writeTarget_memory ((State.commanded_target s c _).trans ht) w v
  have written := (s.commanded c).storeMemory_writes hw w s.dm.data1 v
  rw [reached, State.finishMemory,
    hc.memoryDone_eq (u := (s.commanded c).storeMemory w s.dm.data1 v) rfl] at hs
  exact ⟨_, hs, written, fun hr => (s.commanded c).dropWord_storedAt hr, rfl⟩

section
variable {s : State} (h : CommandReady s) (hm : s.cfg.model ≠ .v3a) (hw : MemoryCanonical s)
  (ht : s.target s.dm.data1 = .memory) {c : Word}
include h hm hw ht

/-- The command writes the low bytes of data0. -/
theorem CommandReady.writes {w : Width} (hc : MemoryCommand c w true) (ha : aligned w s.dm.data1 = true)
    (h15 : c.getLsbD 15 = false) : WritesByCommand s c (lowBytes w s.dm.data0)
      (if c.getLsbD 19 then s.dm.data1 + BitVec.ofNat 32 (widthBytes w) else s.dm.data1) :=
  .of_finish hw ht hc (h.write hm hc ha h15)

/-- The command writes the bytes of data0 combined with the word there. -/
theorem CommandReady.writes_combined (hc : MemoryCommand c .word true) (ha : aligned .word s.dm.data1 = true)
    (h15 : c.getLsbD 15 = true) : WritesByCommand s c
      (bytesOfWord (commandCombine (c.extractLsb' 14 2) (wordAt s s.dm.data1) s.dm.data0))
      (if c.getLsbD 19 then s.dm.data1 + BitVec.ofNat 32 (widthBytes .word) else s.dm.data1) :=
  .of_finish hw ht hc (h.write_combined hm hc ha ht h15)

end

/-- Data1's own word, as the core sees it: the postincrement adds to what the write left in it (R566, R568). -/
theorem CommandReady.write_data1 {s : State} (h : CommandReady s) (hm : s.cfg.model ≠ .v3a)
    (ht : s.target s.dm.data1 = .debugData) (h4 : s.dm.data1.toNat % 4 = 0)
    (ha : s.dm.data1.toNat = 0xE0000004 + s.cfg.dataAddr.toNat) {c : Word} (hc : MemoryCommand c .word true)
    (h15 : c.getLsbD 15 = false) (h19 : c.getLsbD 19 = true) :
    ∃ t, s.hostAccess (.write 0x17 c) = .ok () t ∧ KeepsOtherReservation s t s.dm.data1 ∧
      t = { s with
        resv := t.resv
        dm := { s.dm with command := c, data1 := s.dm.data0 + 4 } } := by
  have offset : ((s.commanded c).storedAt s.dm.data1).debugWord s.dm.data1 = 4 := by
    show s.dm.data1.toNat - (0xE0000000 + s.cfg.dataAddr.toNat) = 4
    omega
  have stored : (s.commanded c).writeTarget .word s.dm.data1 s.dm.data0 =
      .ok () { (s.commanded c).storedAt s.dm.data1 with dm := { s.dm with command := c, data1 := s.dm.data0 } } := by
    simp only [State.writeTarget, State.commanded_target, ht, State.debugStore, offset, true_and]
    rfl
  have hs := h.write hm hc (aligned_word_iff.mpr h4) h15
  rw [stored, State.finishMemory,
    hc.memoryDone_eq (u := { (s.commanded c).storedAt s.dm.data1 with
      dm := { s.dm with command := c, data1 := s.dm.data0 } }) rfl, h19] at hs
  exact ⟨_, hs, fun hr => (s.commanded c).dropWord_storedAt hr, rfl⟩

/-! ## An address that holds nothing (R565) -/

section
variable {s : State} (h : CommandReady s) (hm : s.cfg.model ≠ .v3a) (h4 : s.dm.data1.toNat % 4 = 0)
  (ht : s.target s.dm.data1 = .unmapped) {c : Word}
include h hm h4 ht

theorem CommandReady.read_unmapped (hc : MemoryCommand c .word false) :
    s.hostAccess (.write 0x17 c) = .ok () { s with dm := { s.dm with command := c, cmderr := 5 } } := by
  have fails : (s.commanded c).readTarget .word s.dm.data1 = .fault (.loadAccess s.dm.data1) := by
    simp only [State.readTarget, State.commanded_target, ht]
  refine h.records hc ?_
  rw [← h.runs_memory hc.kind, h.transfer hc hm (aligned_word_iff.mpr h4), fails]
  rfl

theorem CommandReady.write_unmapped (hc : MemoryCommand c .word true) (h15 : c.getLsbD 15 = false) :
    s.hostAccess (.write 0x17 c) = .ok () { s with dm := { s.dm with command := c, cmderr := 5 } } := by
  have fails : (s.commanded c).writeTarget .word s.dm.data1 s.dm.data0 = .fault (.storeAccess s.dm.data1) := by
    simp only [State.writeTarget, State.commanded_target, ht]
  refine h.records hc ?_
  rw [← h.runs_memory hc.kind, h.write hm hc (aligned_word_iff.mpr h4) h15, fails]
  rfl

end

/-- postexec without a transfer starts the program buffer at its first word (R567). -/
theorem CommandReady.postexec {s : State} (h : CommandReady s) : s.hostAccess (.write 0x17 0x00040000) =
    .ok () { s with dbg := .progbuf, pc := 0, dm := { s.dm with command := 0x00040000 } } := by
  have noTransfer : (0x00040000 : Word).getLsbD 17 = false := rfl
  have post : (0x00040000 : Word).getLsbD 18 = true := rfl
  rw [h.runs_register rfl]
  simp only [State.accessRegister, State.postexec, State.commanded_dm, noTransfer, post, if_true]
  rfl

/-! ## The program buffer (R569, R570) -/

/-- A step in the program buffer runs the instruction at the offset in the pc. -/
theorem step_progbuf {s : State} {i : Instr} {n : Nat} (hd : s.dbg = .progbuf) (hi : s.inputs = [])
    (hp : s.pc.toNat < 32) (h : decode ((s.dm.progbuf.toList.flatMap wordBytes).drop s.pc.toNat) = .ok (i, n)) :
    step s = exec i s := by
  have absorbed : s.absorb = .ok () s := by unfold State.absorb; rw [hi]
  rw [step, State.cycle, absorbed, State.run]
  simp only [hd, State.progbufCycle, if_neg (Nat.not_le.mpr hp), State.runBytes, h]

/-- The end of a run without an error only halts the core. -/
theorem State.endProgbuf_zero (s : State) : s.endProgbuf 0 = { s with dbg := .halted } := by
  have kept : (if s.dm.cmderr = 0 then 0 else s.dm.cmderr) = s.dm.cmderr := by
    split
    · exact Eq.symm ‹_›
    · rfl
  rw [State.endProgbuf, kept]

theorem State.endProgbuf_of_none {s : State} (h : s.dm.cmderr = 0) (e : BitVec 3) :
    s.endProgbuf e = { s with dbg := .halted, dm := { s.dm with cmderr := e } } := by
  rw [State.endProgbuf, if_pos h]

theorem State.breakpoint_progbuf {s : State} (h : s.dbg = .progbuf) :
    s.breakpoint = .next { s with dbg := .halted } := by
  rw [State.breakpoint, if_pos h, State.endProgbuf_zero]

theorem State.raiseExc_progbuf {s : State} (h : s.dbg = .progbuf) (e : Exc) : s.raiseExc e = .next (s.endProgbuf 3) :=
  if_pos h

/-- Settles O51: each command is the transfer of its fields, and each way the program buffer goes on or ends is one of
the rules above. -/
theorem abstractMemoryAndProgramBuffer : Obligations.AbstractMemoryAndProgramBuffer := by
  intro s hw a cmd done writes
  refine ⟨fun hd hact he hh => ?_, fun hp => ⟨fun i n hi hlt h => step_progbuf hp hi hlt h, ?_, fun he => ?_⟩⟩
  · have ready : CommandReady s := ⟨hd, hact, he, hh⟩
    refine ⟨fun hm ht => ⟨?_, fun h2 => ?_, ?_, fun h2 => ?_, fun h4 => ?_⟩,
      fun hm ht h4 hx => ?_, fun hm h4 => ?_, fun hm h4 ht => ?_, fun hm => ?_, ready.postexec⟩
    · exact ⟨_, ready.read_narrow hm ht ⟨rfl, rfl, rfl, rfl⟩ rfl (by decide) rfl,
        extract_freed _ (by decide) _ _ rfl rfl, rfl⟩
    · exact ⟨_, ready.read_narrow hm ht ⟨rfl, rfl, rfl, rfl⟩ (aligned_half_iff.mpr h2) (by decide) rfl,
        extract_freed _ (by decide) _ _ rfl rfl, rfl⟩
    · exact ready.writes hm hw ht (w := .byte) ⟨rfl, rfl, rfl, rfl⟩ rfl rfl
    · exact ready.writes hm hw ht ⟨rfl, rfl, rfl, rfl⟩ (aligned_half_iff.mpr h2) rfl
    · have even := aligned_word_iff.mpr h4
      exact ⟨ready.read_word hm ht ⟨rfl, rfl, rfl, rfl⟩ h4, ready.read_word hm ht ⟨rfl, rfl, rfl, rfl⟩ h4,
        ready.writes hm hw ht ⟨rfl, rfl, rfl, rfl⟩ even rfl, ready.writes hm hw ht ⟨rfl, rfl, rfl, rfl⟩ even rfl,
        ready.writes_combined hm hw ht ⟨rfl, rfl, rfl, rfl⟩ even rfl,
        ready.writes_combined hm hw ht ⟨rfl, rfl, rfl, rfl⟩ even rfl⟩
    · exact ready.write_data1 hm ht h4 hx ⟨rfl, rfl, rfl, rfl⟩ rfl rfl
    · have odd := misaligned_word h4
      simp only [List.forall_mem_cons, List.not_mem_nil, false_imp_iff, implies_true, and_true]
      exact ⟨ready.misaligned ⟨rfl, rfl, rfl, rfl⟩ hm odd, ready.misaligned ⟨rfl, rfl, rfl, rfl⟩ hm odd⟩
    · simp only [List.forall_mem_cons, List.not_mem_nil, false_imp_iff, implies_true, and_true]
      exact ⟨ready.read_unmapped hm h4 ht ⟨rfl, rfl, rfl, rfl⟩,
        ready.write_unmapped hm h4 ht ⟨rfl, rfl, rfl, rfl⟩ rfl⟩
    · simp only [List.forall_mem_cons, List.not_mem_nil, false_imp_iff, implies_true, and_true]
      exact ⟨ready.memory_v3a ⟨rfl, rfl, rfl, rfl⟩ hm, ready.memory_v3a ⟨rfl, rfl, rfl, rfl⟩ hm⟩
  · simp only [List.forall_mem_cons, List.not_mem_nil, false_imp_iff, implies_true, and_true]
    exact ⟨State.breakpoint_progbuf hp, State.breakpoint_progbuf hp⟩
  · rw [← State.endProgbuf_of_none he]
    exact State.raiseExc_progbuf hp _

end Sys2Proof.Machine

/-! SUPPORT. Physical memory protection (spec/21_pmp.md R141 to R152): the byte range of each matching mode, the region
that decides, and what its field then allows. -/

namespace Sys2Proof.Machine

/-! ## Region matching (R143 to R146) -/

/-- The mode of region `i`, read in pmpcfg0 itself (R141). -/
theorem pmpMode_cfgByte (c : Csrs) (i : Nat) : pmpMode (pmpCfgByte c i) = c.pmpcfg0.extractLsb' (8 * i + 3) 2 := by
  refine BitVec.eq_of_getLsbD_eq fun j hj => ?_
  have inside : 3 + j < 8 := by omega
  simp only [pmpMode, pmpCfgByte, BitVec.getLsbD_extractLsb', hj, inside, decide_true, Bool.true_and, Nat.add_assoc]

theorem pmpAddrField_eq (c : Csrs) (i : Nat) : pmpAddrField c i = (c.pmpaddr[i]?.getD 0).toNat := by
  unfold pmpAddrField
  cases c.pmpaddr[i]? <;> rfl

theorem pmpAddrField_lt (c : Csrs) (i : Nat) : pmpAddrField c i < 2 ^ 30 := by
  rw [pmpAddrField_eq]
  exact BitVec.isLt _

section
variable {c : Csrs} {i a : Nat}

theorem pmpMatches_off (h : pmpMode (pmpCfgByte c i) = 0#2) : pmpMatches c i a = false := by
  rw [pmpMatches, h]
  rfl

theorem pmpMatches_tor (h : pmpMode (pmpCfgByte c i) = 1#2) :
    pmpMatches c i a = true ↔ torBase c i ≤ a ∧ a < pmpAddrField c i * 4 := by
  simp only [pmpMatches, h, Bool.and_eq_true, decide_eq_true_eq]

theorem pmpMatches_na4 (h : pmpMode (pmpCfgByte c i) = 2#2) :
    pmpMatches c i a = true ↔ a / 4 = pmpAddrField c i := by
  simp only [pmpMatches, h, beq_iff_eq]

theorem pmpMatches_napot (h : pmpMode (pmpCfgByte c i) = 3#2) :
    pmpMatches c i a = napotMatches (pmpAddrField c i) a := by
  rw [pmpMatches, h]
  rfl

end

/-- The aligned block of `b` bytes that `n` numbers. -/
theorem div_eq_iff_mem_block {b : Nat} (hb : 0 < b) (a n : Nat) : a / b = n ↔ n * b ≤ a ∧ a < n * b + b := by
  rw [Nat.div_eq_iff hb]
  omega

/-- A field ends in exactly `k` 1 bits, in R146's sense, when the count of trailing ones finds `k`; with `k = 30` all
its bits are 1 and the count stops at the width. -/
theorem trailingOnes_of_mod {v k : Nat} (hv : v < 2 ^ 30) (h : v % 2 ^ (k + 1) = 2 ^ k - 1) : trailingOnes 30 v = k := by
  rcases Nat.lt_or_ge k 30 with hk | hk
  · have bit (j : Nat) (hj : j < k + 1) : v.testBit j = decide (j < k) := by
      rw [← Nat.testBit_two_pow_sub_one k j, ← h, Nat.testBit_mod_two_pow, decide_eq_true hj, Bool.true_and]
    refine trailingOnes_eq hk ?_ fun j hj => ?_
    · rw [bit k (Nat.lt_succ_self k), decide_eq_false (Nat.lt_irrefl k)]
    · rw [bit j (Nat.lt_succ_of_lt hj), decide_eq_true hj]
  · have fits : 2 ^ 30 ≤ 2 ^ k := Nat.pow_le_pow_right (by decide) hk
    have all : v = 2 ^ k - 1 := by
      rwa [Nat.mod_eq_of_lt (hv.trans_le (fits.trans (Nat.pow_le_pow_right (by decide) (Nat.le_succ k))))] at h
    have width : k = 30 := Nat.le_antisymm ((Nat.pow_le_pow_iff_right (by decide : 1 < 2)).mp (by omega)) hk
    subst width all
    rfl

/-- A NAPOT field that ends in exactly `k` 1 bits names an aligned block of 2^(k+3) bytes. -/
theorem napotMatches_iff {v k : Nat} (a : Nat) (hv : v < 2 ^ 30) (h : v % 2 ^ (k + 1) = 2 ^ k - 1) :
    napotMatches v a = true ↔
      v / 2 ^ (k + 1) * 2 ^ (k + 3) ≤ a ∧ a < v / 2 ^ (k + 1) * 2 ^ (k + 3) + 2 ^ (k + 3) := by
  rw [napotMatches, trailingOnes_of_mod hv h, beq_iff_eq, div_eq_iff_mem_block (Nat.two_pow_pos _)]

/-- Settles O40, mode by mode. -/
theorem pmpRegionMatching : Obligations.PmpRegionMatching := by
  intro c i a _ field mode
  have field_eq (j : Nat) : field j = pmpAddrField c j := (pmpAddrField_eq c j).symm
  have mode_eq {n : Nat} (h : mode = n) : pmpMode (pmpCfgByte c i) = BitVec.ofNat 2 n := by
    rw [pmpMode_cfgByte, ← h, BitVec.ofNat_toNat, BitVec.setWidth_eq]
  simp only [field_eq]
  refine ⟨fun off => ?_, fun tor => ?_, fun na4 => ?_, fun k napot hk => ?_⟩
  · exact pmpMatches_off (mode_eq off)
  · exact pmpMatches_tor (mode_eq tor)
  · rw [pmpMatches_na4 (mode_eq na4), div_eq_iff_mem_block (by decide)]
  · rw [pmpMatches_napot (mode_eq napot), napotMatches_iff a (pmpAddrField_lt c i) hk]

/-! ## The region that decides (R148) -/

theorem pmpRegion_eq_none {c : Csrs} {a : Nat} (h : ∀ i, i < 4 → pmpMatches c i a = false) : pmpRegion c a = none := by
  show (List.range 4).find? _ = none
  refine List.find?_eq_none.mpr fun i hi => ?_
  rw [h i (List.mem_range.mp hi)]
  decide

theorem pmpRegion_eq_some {c : Csrs} {i a : Nat} (hi : i < 4) (hit : pmpMatches c i a = true)
    (miss : ∀ j, j < i → pmpMatches c j a = false) : pmpRegion c a = some i := by
  show (List.range 4).find? _ = some i
  refine List.find?_range_eq_some.mpr ⟨hit, List.mem_range.mpr hi, fun j hj => ?_⟩
  rw [miss j hj]
  rfl

/-! ## The check (R150, R152) -/

section
variable {c : Csrs} {a : Nat}

theorem pmpCheck_no_region (p : Priv) (k : Access) (h : pmpRegion c a = none) :
    pmpCheck c p k a = decide (p = .machine) := by
  rw [pmpCheck, h]

/-- Machine mode passes an unlocked region whatever its permissions (R150). -/
theorem pmpCheck_unlocked {i : Nat} (k : Access) (h : pmpRegion c a = some i) (hl : (pmpCfgByte c i).getLsbD 7 = false) :
    pmpCheck c .machine k a = true := by
  simp only [pmpCheck, h, hl]
  rfl

/-- User mode, and machine mode under a lock, go by the permissions (R150, R152). -/
theorem pmpCheck_permits {i : Nat} {p : Priv} (k : Access) (h : pmpRegion c a = some i)
    (hp : p = .user ∨ (pmpCfgByte c i).getLsbD 7 = true) : pmpCheck c p k a = pmpPermits (pmpCfgByte c i) k := by
  have applies : (decide (p = .machine) && !(pmpCfgByte c i).getLsbD 7) = false := by
    rcases hp with rfl | hl
    · rfl
    · rw [hl, Bool.not_true, Bool.and_false]
  simp only [pmpCheck, h, applies, Bool.false_or]

end

/-- Settles O41: the region found is the lowest that matches, and the rules of the check apply to it. -/
theorem pmpCheckDecides : Obligations.PmpCheckDecides := by
  refine ⟨fun s k a => ⟨fun hm => if_neg hm, fun hm => if_pos hm⟩, fun c p k a => ⟨fun miss => ?_, ?_⟩⟩
  · exact pmpCheck_no_region p k (pmpRegion_eq_none miss)
  · intro i hi hit miss b
    have region : pmpRegion c a = some i := pmpRegion_eq_some hi hit miss
    refine ⟨fun hp hl => ?_, fun hp => ?_⟩
    · subst hp
      exact pmpCheck_unlocked k region hl
    · rw [pmpCheck_permits k region hp]
      cases k <;> rfl

end Sys2Proof.Machine

/-! SUPPORT. Encoding and decoding are inverse to each other (spec/30_encoding.md R170 to R182, R348): for each format
one equivalence that says which fields of a word or parcel an encoding fixes, then the decoder against the encoder, the
words by major opcode and the parcels by quadrant. -/

namespace Sys2Proof

-- One theorem after another: elaborated side by side, these start more threads than the check's memory limit allows.
set_option Elab.async false

/-! ## Slices of a concatenation -/

/-- A slice of a slice is a slice. -/
theorem slice_slice {n s l s' l' : Nat} (x : BitVec n) (h : s' + l' ≤ l) :
    (x.extractLsb' s l).extractLsb' s' l' = x.extractLsb' (s + s') l' := by
  ext i hi
  have : s' + i < l := by omega
  simp [this, Nat.add_assoc]

/-- A number whose low bits are 0 is its upper part followed by zeros. -/
theorem append_zeros {n k : Nat} {x : BitVec (n + k)} (h : ∀ i, i < k → x.getLsbD i = false) :
    x.extractLsb' k n ++ 0#k = x := by
  have low : x.extractLsb' 0 k = 0#k := by
    ext i hi
    simpa using h i hi
  rw [← low, BitVec.extractLsb'_append_extractLsb'_eq_extractLsb' (by omega), BitVec.extractLsb'_eq_self]

theorem evenOffset_zeros {n : Nat} {off : BitVec (n + 1)} (h : evenOffset off = true) :
    off.extractLsb' 1 n ++ 0#1 = off := by
  simp only [evenOffset, Bool.not_eq_true'] at h
  refine append_zeros fun i hi => ?_
  interval_cases i
  exact h

theorem multipleOf4_zeros {n : Nat} {imm : BitVec (n + 2)} (h : multipleOf4 imm = true) :
    imm.extractLsb' 2 n ++ 0#2 = imm := by
  simp only [multipleOf4, Bool.and_eq_true, Bool.not_eq_true'] at h
  obtain ⟨h0, h1⟩ := h
  refine append_zeros fun i hi => ?_
  interval_cases i
  exacts [h0, h1]

theorem multipleOf16_zeros {n : Nat} {imm : BitVec (n + 4)} (h : multipleOf16 imm = true) :
    imm.extractLsb' 4 n ++ 0#4 = imm := by
  simp only [multipleOf16, Bool.and_eq_true, Bool.not_eq_true'] at h
  obtain ⟨⟨⟨h0, h1⟩, h2⟩, h3⟩ := h
  refine append_zeros fun i hi => ?_
  interval_cases i
  exacts [h0, h1, h2, h3]

/-! ## The formats of 32-bit words (R172 to R175)

From left to right a field is sliced out of the concatenation; from right to left adjacent slices join to the whole word.
`Nat.reduceAdd` is off: the library's lemmas about slices match a width written as a sum. -/

section
variable {f7 : BitVec 7} {f3 : BitVec 3} {f5 : BitVec 5} {rs2 rs1 rd : Reg} {op : BitVec 7} {w : Word}

theorem encR_eq_word : encR f7 rs2 rs1 f3 rd op = .word w ↔
    fOpcode w = op ∧ fFunct3 w = f3 ∧ fFunct7 w = f7 ∧ fRd w = rd ∧ fRs1 w = rs1 ∧ fRs2 w = rs2 := by
  constructor
  · intro h
    obtain rfl := Encoding.word.inj h
    simp [-Nat.reduceAdd, fOpcode, fFunct3, fFunct7, fRd, fRs1, fRs2,
      BitVec.extractLsb'_append_eq_of_le, BitVec.extractLsb'_append_eq_of_add_le]
  · rintro ⟨rfl, rfl, rfl, rfl, rfl, rfl⟩
    simp [-Nat.reduceAdd, encR, fOpcode, fFunct3, fFunct7, fRd, fRs1, fRs2,
      BitVec.extractLsb'_append_extractLsb'_eq_extractLsb']

theorem encI_eq_word {imm : BitVec 12} : encI imm rs1 f3 rd op = .word w ↔
    fOpcode w = op ∧ fFunct3 w = f3 ∧ fRd w = rd ∧ fRs1 w = rs1 ∧ fImmI w = imm := by
  constructor
  · intro h
    obtain rfl := Encoding.word.inj h
    simp [-Nat.reduceAdd, fOpcode, fFunct3, fRd, fRs1, fImmI,
      BitVec.extractLsb'_append_eq_of_le, BitVec.extractLsb'_append_eq_of_add_le]
  · rintro ⟨rfl, rfl, rfl, rfl, rfl⟩
    simp [-Nat.reduceAdd, encI, fOpcode, fFunct3, fRd, fRs1, fImmI,
      BitVec.extractLsb'_append_extractLsb'_eq_extractLsb']

theorem encS_eq_word {imm : BitVec 12} : encS imm rs2 rs1 f3 = .word w ↔
    fOpcode w = 0x23#7 ∧ fFunct3 w = f3 ∧ fRs1 w = rs1 ∧ fRs2 w = rs2 ∧ fImmS w = imm := by
  constructor
  · intro h
    obtain rfl := Encoding.word.inj h
    simp [-Nat.reduceAdd, fOpcode, fFunct3, fRs1, fRs2, fImmS,
      BitVec.extractLsb'_append_eq_of_le, BitVec.extractLsb'_append_eq_of_add_le,
      BitVec.extractLsb'_append_extractLsb'_eq_extractLsb']
  · rintro ⟨hop, rfl, rfl, rfl, rfl⟩
    simp [-Nat.reduceAdd, encS, ← hop, fOpcode, fFunct3, fRs1, fRs2, fImmS,
      BitVec.extractLsb'_append_eq_of_le, BitVec.extractLsb'_append_eq_of_add_le,
      BitVec.extractLsb'_append_extractLsb'_eq_extractLsb']

theorem encB_eq_word {off : BitVec 13} (he : evenOffset off = true) : encB off rs2 rs1 f3 = .word w ↔
    fOpcode w = 0x63#7 ∧ fFunct3 w = f3 ∧ fRs1 w = rs1 ∧ fRs2 w = rs2 ∧ fImmB w = off := by
  constructor
  · intro h
    obtain rfl := Encoding.word.inj h
    simp [-Nat.reduceAdd, fOpcode, fFunct3, fRs1, fRs2, fImmB,
      BitVec.extractLsb'_append_eq_of_le, BitVec.extractLsb'_append_eq_of_add_le,
      BitVec.extractLsb'_append_extractLsb'_eq_extractLsb']
    exact evenOffset_zeros he
  · rintro ⟨hop, rfl, rfl, rfl, rfl⟩
    simp [-Nat.reduceAdd, encB, ← hop, fOpcode, fFunct3, fRs1, fRs2, fImmB,
      BitVec.extractLsb'_append_eq_of_le, BitVec.extractLsb'_append_eq_of_add_le,
      BitVec.extractLsb'_append_extractLsb'_eq_extractLsb']

theorem encU_eq_word {imm : BitVec 20} : encU imm rd op = .word w ↔
    fOpcode w = op ∧ fRd w = rd ∧ fImmU w = imm := by
  constructor
  · intro h
    obtain rfl := Encoding.word.inj h
    simp [-Nat.reduceAdd, fOpcode, fRd, fImmU,
      BitVec.extractLsb'_append_eq_of_le, BitVec.extractLsb'_append_eq_of_add_le]
  · rintro ⟨rfl, rfl, rfl⟩
    simp [-Nat.reduceAdd, encU, fOpcode, fRd, fImmU, BitVec.extractLsb'_append_extractLsb'_eq_extractLsb']

theorem encJ_eq_word {off : BitVec 21} (he : evenOffset off = true) : encJ off rd = .word w ↔
    fOpcode w = 0x6F#7 ∧ fRd w = rd ∧ fImmJ w = off := by
  constructor
  · intro h
    obtain rfl := Encoding.word.inj h
    simp [-Nat.reduceAdd, fOpcode, fRd, fImmJ,
      BitVec.extractLsb'_append_eq_of_le, BitVec.extractLsb'_append_eq_of_add_le,
      BitVec.extractLsb'_append_extractLsb'_eq_extractLsb']
    exact evenOffset_zeros he
  · rintro ⟨hop, rfl, rfl⟩
    simp [-Nat.reduceAdd, encJ, ← hop, fOpcode, fRd, fImmJ,
      BitVec.extractLsb'_append_eq_of_le, BitVec.extractLsb'_append_eq_of_add_le,
      BitVec.extractLsb'_append_extractLsb'_eq_extractLsb']

theorem ofBool_getLsbD {n : Nat} (x : BitVec n) (i : Nat) : BitVec.ofBool (x.getLsbD i) = x.extractLsb' i 1 := by
  ext j hj
  obtain rfl : j = 0 := by omega
  simp

theorem encA_eq_word {aq rl : Bool} : encA f5 aq rl rs2 rs1 rd = .word w ↔
    fOpcode w = 0x2F#7 ∧ fFunct3 w = 2#3 ∧ fFunct5 w = f5 ∧ fAq w = aq ∧ fRl w = rl ∧ fRd w = rd ∧ fRs1 w = rs1 ∧
      fRs2 w = rs2 := by
  have flag : ∀ (i : Nat) (b : Bool), w.getLsbD i = b ↔ w.extractLsb' i 1 = BitVec.ofBool b := by
    intro i b
    rw [← ofBool_getLsbD, BitVec.ofBool_eq_iff_eq]
  simp only [fAq, fRl, flag]
  constructor
  · intro h
    obtain rfl := Encoding.word.inj h
    simp [-Nat.reduceAdd, fOpcode, fFunct3, fFunct5, fRd, fRs1, fRs2,
      BitVec.extractLsb'_append_eq_of_le, BitVec.extractLsb'_append_eq_of_add_le]
  · rintro ⟨hop, h3, rfl, haq, hrl, rfl, rfl, rfl⟩
    rw [encA, ← haq, ← hrl, ← hop, ← h3]
    simp [-Nat.reduceAdd, fOpcode, fFunct3, fFunct5, fRd, fRs1, fRs2,
      BitVec.extractLsb'_append_extractLsb'_eq_extractLsb']

/-- The immediate of `fence` is its three fields (R262). -/
theorem encode_fence_eq_word {fm pred succ : BitVec 4} : encode (.fence fm pred succ rs1 rd) = .word w ↔
    fOpcode w = 0x0F#7 ∧ fFunct3 w = 0#3 ∧ fRd w = rd ∧ fRs1 w = rs1 ∧ w.extractLsb' 28 4 = fm ∧
      w.extractLsb' 24 4 = pred ∧ w.extractLsb' 20 4 = succ := by
  constructor
  · intro h
    obtain rfl := Encoding.word.inj h
    simp [-Nat.reduceAdd, fOpcode, fFunct3, fRd, fRs1,
      BitVec.extractLsb'_append_eq_of_le, BitVec.extractLsb'_append_eq_of_add_le]
  · rintro ⟨hop, h3, rfl, rfl, rfl, rfl, rfl⟩
    show encI _ _ 0#3 _ 0x0F#7 = _
    simp [-Nat.reduceAdd, encI, ← hop, ← h3, fOpcode, fFunct3, fRd, fRs1,
      BitVec.extractLsb'_append_extractLsb'_eq_extractLsb']

end

/-! ## The formats of 16-bit parcels (R178) -/

section
variable {f3 : BitVec 3} {f2 : BitVec 2} {hi : BitVec 1} {rs2 rs1 rd lo : Reg} {rs2' rs1' rd' r' : CReg} {op : BitVec 2}
  {p : Half}

theorem encCI_eq_half : encCI f3 hi rd lo op = .half p ↔
    pOp p = op ∧ pFunct3 p = f3 ∧ pBit12 p = hi ∧ pRd p = rd ∧ pRs2 p = lo := by
  constructor
  · intro h
    obtain rfl := Encoding.half.inj h
    simp [-Nat.reduceAdd, pOp, pFunct3, pBit12, pRd, pRs2,
      BitVec.extractLsb'_append_eq_of_le, BitVec.extractLsb'_append_eq_of_add_le]
  · rintro ⟨rfl, rfl, rfl, rfl, rfl⟩
    simp [-Nat.reduceAdd, encCI, pOp, pFunct3, pBit12, pRd, pRs2,
      BitVec.extractLsb'_append_extractLsb'_eq_extractLsb']

/-- The 6-bit immediate is bit 12 and the field of rs2 (R325). -/
theorem pImm6_eq {imm : BitVec 6} : pImm6 p = imm ↔ pBit12 p = imm.extractLsb' 5 1 ∧ pRs2 p = imm.extractLsb' 0 5 := by
  constructor
  · rintro rfl
    simp [-Nat.reduceAdd, pImm6, pBit12, pRs2, BitVec.extractLsb'_append_eq_of_le,
      BitVec.extractLsb'_append_eq_of_add_le]
  · rintro ⟨h12, h2⟩
    show pBit12 p ++ pRs2 p = imm
    rw [h12, h2, BitVec.extractLsb'_append_extractLsb'_eq_extractLsb' (by rfl), BitVec.extractLsb'_eq_self]

theorem encCI6_eq_half {imm : BitVec 6} : encCI6 f3 imm rd = .half p ↔
    pOp p = 1#2 ∧ pFunct3 p = f3 ∧ pRd p = rd ∧ pImm6 p = imm := by
  rw [encCI6, encCI_eq_half, pImm6_eq]
  tauto

theorem encCL_eq_half {uimm : BitVec 7} (hu : multipleOf4 uimm = true) : encCL f3 uimm rs1' r' = .half p ↔
    pOp p = 0#2 ∧ pFunct3 p = f3 ∧ pHigh' p = rs1' ∧ pLow' p = r' ∧ pImmLw p = uimm := by
  constructor
  · intro h
    obtain rfl := Encoding.half.inj h
    simp [-Nat.reduceAdd, pOp, pFunct3, pHigh', pLow', pImmLw,
      BitVec.extractLsb'_append_eq_of_le, BitVec.extractLsb'_append_eq_of_add_le,
      BitVec.extractLsb'_append_extractLsb'_eq_extractLsb']
    exact multipleOf4_zeros hu
  · rintro ⟨hop, rfl, rfl, rfl, rfl⟩
    simp [-Nat.reduceAdd, encCL, ← hop, pOp, pFunct3, pHigh', pLow', pImmLw,
      BitVec.extractLsb'_append_eq_of_le, BitVec.extractLsb'_append_eq_of_add_le,
      BitVec.extractLsb'_append_extractLsb'_eq_extractLsb']

theorem encCBAlu_eq_half : encCBAlu hi f2 rd' lo = .half p ↔
    pOp p = 1#2 ∧ pFunct3 p = 4#3 ∧ p.extractLsb' 10 2 = f2 ∧ pBit12 p = hi ∧ pHigh' p = rd' ∧ pRs2 p = lo := by
  constructor
  · intro h
    obtain rfl := Encoding.half.inj h
    simp [-Nat.reduceAdd, pOp, pFunct3, pBit12, pHigh', pRs2,
      BitVec.extractLsb'_append_eq_of_le, BitVec.extractLsb'_append_eq_of_add_le]
  · rintro ⟨hop, h3, rfl, rfl, rfl, rfl⟩
    simp [-Nat.reduceAdd, encCBAlu, ← hop, ← h3, pOp, pFunct3, pBit12, pHigh', pRs2,
      BitVec.extractLsb'_append_extractLsb'_eq_extractLsb']

theorem encCA_eq_half : encCA f2 rd' rs2' = .half p ↔
    pOp p = 1#2 ∧ pFunct3 p = 4#3 ∧ p.extractLsb' 10 2 = 3#2 ∧ pBit12 p = 0#1 ∧ p.extractLsb' 5 2 = f2 ∧
      pHigh' p = rd' ∧ pLow' p = rs2' := by
  constructor
  · intro h
    obtain rfl := Encoding.half.inj h
    simp [-Nat.reduceAdd, pOp, pFunct3, pBit12, pHigh', pLow',
      BitVec.extractLsb'_append_eq_of_le, BitVec.extractLsb'_append_eq_of_add_le]
  · rintro ⟨hop, h3, h10, h12, rfl, rfl, rfl⟩
    have top : 0b100011#6 = pFunct3 p ++ pBit12 p ++ p.extractLsb' 10 2 := by rw [h3, h12, h10]; rfl
    simp [-Nat.reduceAdd, encCA, ← hop, top, pOp, pFunct3, pBit12, pHigh', pLow',
      BitVec.extractLsb'_append_extractLsb'_eq_extractLsb']

theorem encCJ_eq_half {off : BitVec 12} (he : evenOffset off = true) : encCJ f3 off = .half p ↔
    pOp p = 1#2 ∧ pFunct3 p = f3 ∧ pImmJ p = off := by
  constructor
  · intro h
    obtain rfl := Encoding.half.inj h
    simp [-Nat.reduceAdd, pOp, pFunct3, pImmJ,
      BitVec.extractLsb'_append_eq_of_le, BitVec.extractLsb'_append_eq_of_add_le,
      BitVec.extractLsb'_append_extractLsb'_eq_extractLsb']
    exact evenOffset_zeros he
  · rintro ⟨hop, rfl, rfl⟩
    simp [-Nat.reduceAdd, encCJ, ← hop, pOp, pFunct3, pImmJ,
      BitVec.extractLsb'_append_eq_of_le, BitVec.extractLsb'_append_eq_of_add_le,
      BitVec.extractLsb'_append_extractLsb'_eq_extractLsb']

theorem encCB_eq_half {off : BitVec 9} (he : evenOffset off = true) : encCB f3 off rs1' = .half p ↔
    pOp p = 1#2 ∧ pFunct3 p = f3 ∧ pHigh' p = rs1' ∧ pImmB p = off := by
  constructor
  · intro h
    obtain rfl := Encoding.half.inj h
    simp [-Nat.reduceAdd, pOp, pFunct3, pHigh', pImmB,
      BitVec.extractLsb'_append_eq_of_le, BitVec.extractLsb'_append_eq_of_add_le,
      BitVec.extractLsb'_append_extractLsb'_eq_extractLsb']
    exact evenOffset_zeros he
  · rintro ⟨hop, rfl, rfl, rfl⟩
    simp [-Nat.reduceAdd, encCB, ← hop, pOp, pFunct3, pHigh', pImmB,
      BitVec.extractLsb'_append_eq_of_le, BitVec.extractLsb'_append_eq_of_add_le,
      BitVec.extractLsb'_append_extractLsb'_eq_extractLsb']

theorem encCR_eq_half : encCR hi rd rs2 = .half p ↔
    pOp p = 2#2 ∧ pFunct3 p = 4#3 ∧ pBit12 p = hi ∧ pRd p = rd ∧ pRs2 p = rs2 := by
  constructor
  · intro h
    obtain rfl := Encoding.half.inj h
    simp [-Nat.reduceAdd, pOp, pFunct3, pBit12, pRd, pRs2,
      BitVec.extractLsb'_append_eq_of_le, BitVec.extractLsb'_append_eq_of_add_le]
  · rintro ⟨hop, h3, rfl, rfl, rfl⟩
    simp [-Nat.reduceAdd, encCR, ← hop, ← h3, pOp, pFunct3, pBit12, pRd, pRs2,
      BitVec.extractLsb'_append_extractLsb'_eq_extractLsb']

/-! The parcels whose immediate has an order of its own (R321, R328, R341, R347). -/

theorem encode_cAddi4spn_eq_half {u : BitVec 10} (hu : multipleOf4 u = true) : encode (.cAddi4spn rd' u) = .half p ↔
    pOp p = 0#2 ∧ pFunct3 p = 0#3 ∧ pLow' p = rd' ∧ pImmAddi4spn p = u := by
  constructor
  · intro h
    obtain rfl := Encoding.half.inj h
    simp [-Nat.reduceAdd, pOp, pFunct3, pLow', pImmAddi4spn,
      BitVec.extractLsb'_append_eq_of_le, BitVec.extractLsb'_append_eq_of_add_le,
      BitVec.extractLsb'_append_extractLsb'_eq_extractLsb']
    exact multipleOf4_zeros hu
  · rintro ⟨hop, h3, rfl, rfl⟩
    simp [-Nat.reduceAdd, encode, ← hop, ← h3, pOp, pFunct3, pLow', pImmAddi4spn,
      BitVec.extractLsb'_append_eq_of_le, BitVec.extractLsb'_append_eq_of_add_le,
      BitVec.extractLsb'_append_extractLsb'_eq_extractLsb']

theorem encode_cSwsp_eq_half {u : BitVec 8} (hu : multipleOf4 u = true) : encode (.cSwsp rs2 u) = .half p ↔
    pOp p = 2#2 ∧ pFunct3 p = 6#3 ∧ pRs2 p = rs2 ∧ pImmSwsp p = u := by
  constructor
  · intro h
    obtain rfl := Encoding.half.inj h
    simp [-Nat.reduceAdd, pOp, pFunct3, pRs2, pImmSwsp,
      BitVec.extractLsb'_append_eq_of_le, BitVec.extractLsb'_append_eq_of_add_le,
      BitVec.extractLsb'_append_extractLsb'_eq_extractLsb']
    exact multipleOf4_zeros hu
  · rintro ⟨hop, h3, rfl, rfl⟩
    simp [-Nat.reduceAdd, encode, ← hop, ← h3, pOp, pFunct3, pRs2, pImmSwsp,
      BitVec.extractLsb'_append_eq_of_le, BitVec.extractLsb'_append_eq_of_add_le,
      BitVec.extractLsb'_append_extractLsb'_eq_extractLsb']

theorem encode_cLwsp_eq_half {u : BitVec 8} (hu : multipleOf4 u = true) : encode (.cLwsp rd u) = .half p ↔
    pOp p = 2#2 ∧ pFunct3 p = 2#3 ∧ pRd p = rd ∧ pImmLwsp p = u := by
  constructor
  · intro h
    obtain rfl := Encoding.half.inj h
    simp [-Nat.reduceAdd, pOp, pFunct3, pRd, pImmLwsp,
      BitVec.extractLsb'_append_eq_of_le, BitVec.extractLsb'_append_eq_of_add_le,
      BitVec.extractLsb'_append_extractLsb'_eq_extractLsb']
    exact multipleOf4_zeros hu
  · rintro ⟨hop, h3, rfl, rfl⟩
    simp [-Nat.reduceAdd, encode, encCI, ← hop, ← h3, pOp, pFunct3, pRd, pImmLwsp,
      BitVec.extractLsb'_append_eq_of_le, BitVec.extractLsb'_append_eq_of_add_le,
      BitVec.extractLsb'_append_extractLsb'_eq_extractLsb']

theorem encode_cAddi16sp_eq_half {i : BitVec 10} (hi : multipleOf16 i = true) : encode (.cAddi16sp i) = .half p ↔
    pOp p = 1#2 ∧ pFunct3 p = 3#3 ∧ pRd p = 2#5 ∧ pImmAddi16sp p = i := by
  have fields : pImmAddi16sp p = pBit12 p ++ (pRs2 p).extractLsb' 1 2 ++ (pRs2 p).extractLsb' 3 1 ++
      (pRs2 p).extractLsb' 0 1 ++ (pRs2 p).extractLsb' 4 1 ++ 0#4 := by
    simp only [pRs2, slice_slice _ (by decide : 1 + 2 ≤ 5), slice_slice _ (by decide : 3 + 1 ≤ 5),
      slice_slice _ (by decide : 0 + 1 ≤ 5), slice_slice _ (by decide : 4 + 1 ≤ 5)]
    rfl
  constructor
  · intro h
    obtain ⟨hop, h3, h12, hrd, h2⟩ := encCI_eq_half.mp h
    refine ⟨hop, h3, hrd, ?_⟩
    rw [fields, h12, h2]
    simp [-Nat.reduceAdd, BitVec.extractLsb'_append_eq_of_le, BitVec.extractLsb'_append_eq_of_add_le,
      BitVec.extractLsb'_append_extractLsb'_eq_extractLsb']
    exact multipleOf16_zeros hi
  · rintro ⟨hop, h3, hrd, rfl⟩
    simp [-Nat.reduceAdd, encode, encCI, ← hop, ← h3, ← hrd, pOp, pFunct3, pRd, pImmAddi16sp,
      BitVec.extractLsb'_append_eq_of_le, BitVec.extractLsb'_append_eq_of_add_le,
      BitVec.extractLsb'_append_extractLsb'_eq_extractLsb']

end

/-! ## The decoder by major opcode, and OP by funct7 (R180, R181) -/

section
variable {w : Word}

theorem decodeRow_load (h : fOpcode w = 0x03#7) : decodeRow w = decodeLoad w := by rw [decodeRow, h]; rfl
theorem decodeRow_miscMem (h : fOpcode w = 0x0F#7) : decodeRow w = decodeMiscMem w := by rw [decodeRow, h]; rfl
theorem decodeRow_opImm (h : fOpcode w = 0x13#7) : decodeRow w = decodeOpImm w := by rw [decodeRow, h]; rfl
theorem decodeRow_auipc (h : fOpcode w = 0x17#7) : decodeRow w = some (.auipc (fRd w) (fImmU w)) := by
  rw [decodeRow, h]
  rfl

theorem decodeRow_store (h : fOpcode w = 0x23#7) : decodeRow w = decodeStore w := by rw [decodeRow, h]; rfl
theorem decodeRow_amo (h : fOpcode w = 0x2F#7) : decodeRow w = decodeAmo w := by rw [decodeRow, h]; rfl
theorem decodeRow_op (h : fOpcode w = 0x33#7) : decodeRow w = decodeOp w := by rw [decodeRow, h]; rfl
theorem decodeRow_lui (h : fOpcode w = 0x37#7) : decodeRow w = some (.lui (fRd w) (fImmU w)) := by
  rw [decodeRow, h]
  rfl

theorem decodeRow_branch (h : fOpcode w = 0x63#7) : decodeRow w = decodeBranch w := by rw [decodeRow, h]; rfl
theorem decodeRow_jalr (h : fOpcode w = 0x67#7) (h3 : fFunct3 w = 0#3) :
    decodeRow w = some (.jalr (fRd w) (fRs1 w) (fImmI w)) := by
  rw [decodeRow, h, h3]
  rfl

theorem decodeRow_jal (h : fOpcode w = 0x6F#7) : decodeRow w = some (.jal (fRd w) (fImmJ w)) := by
  rw [decodeRow, h]
  rfl

theorem decodeRow_system (h : fOpcode w = 0x73#7) : decodeRow w = decodeSystem w := by rw [decodeRow, h]; rfl

theorem decodeOpImm_001 (h : fFunct3 w = 1#3) : decodeOpImm w = decodeOpImm001 w := by rw [decodeOpImm, h]; rfl
theorem decodeOpImm_101 (h : fFunct3 w = 5#3) : decodeOpImm w = decodeOpImm101 w := by rw [decodeOpImm, h]; rfl
theorem decodeOp_base (h : fFunct7 w = 0#7) : decodeOp w = some (decodeOpBase w) := by rw [decodeOp, h]; rfl
theorem decodeOp_alt (h : fFunct7 w = 0b0100000#7) : decodeOp w = decodeOpAlt w := by rw [decodeOp, h]; rfl
theorem decodeOp_mul (h : fFunct7 w = 1#7) : decodeOp w = some (decodeOpMul w) := by rw [decodeOp, h]; rfl
theorem decodeOp_minMax (h : fFunct7 w = 0b0000101#7) : decodeOp w = decodeOpMinMax w := by rw [decodeOp, h]; rfl

end

/-! ## The decoder by quadrant (R182) -/

section
variable {p : Half}

theorem decodeHalf_q0 (h : pOp p = 0#2) : decodeHalf p = decodeQ0 p := by rw [decodeHalf, h]; rfl
theorem decodeHalf_q1 (h : pOp p = 1#2) : decodeHalf p = decodeQ1 p := by rw [decodeHalf, h]; rfl
theorem decodeHalf_q2 (h : pOp p = 2#2) : decodeHalf p = decodeQ2 p := by rw [decodeHalf, h]; rfl
theorem decodeQ1_lui (h : pFunct3 p = 3#3) : decodeQ1 p = decodeQ1Lui p := by rw [decodeQ1, h]; rfl
theorem decodeQ1_alu (h : pFunct3 p = 4#3) : decodeQ1 p = decodeQ1Alu p := by rw [decodeQ1, h]; rfl
theorem decodeQ2_reg (h : pFunct3 p = 4#3) : decodeQ2 p = decodeQ2Reg p := by rw [decodeQ2, h]; rfl

end

/-! ## Every encoding is decoded to its instruction -/

/-- Each row of the table is found from its own word. -/
theorem decodeRow_encode {i : Instr} {w : Word} (hi : i.wf = true) (h : encode i = .word w) :
    decodeRow w = some i := by
  cases i
  case lui =>
    obtain ⟨hop, rfl, rfl⟩ := encU_eq_word.mp h
    exact decodeRow_lui hop
  case auipc =>
    obtain ⟨hop, rfl, rfl⟩ := encU_eq_word.mp h
    exact decodeRow_auipc hop
  case jal =>
    obtain ⟨hop, rfl, rfl⟩ := (encJ_eq_word hi).mp h
    exact decodeRow_jal hop
  case jalr =>
    obtain ⟨hop, h3, rfl, rfl, rfl⟩ := encI_eq_word.mp h
    exact decodeRow_jalr hop h3
  case beq | bne | blt | bge | bltu | bgeu =>
    obtain ⟨hop, h3, rfl, rfl, rfl⟩ := (encB_eq_word hi).mp h
    rw [decodeRow_branch hop, decodeBranch, h3]
    rfl
  case lb | lh | lw | lbu | lhu =>
    obtain ⟨hop, h3, rfl, rfl, rfl⟩ := encI_eq_word.mp h
    rw [decodeRow_load hop, decodeLoad, h3]
    rfl
  case sb | sh | sw =>
    obtain ⟨hop, h3, rfl, rfl, rfl⟩ := encS_eq_word.mp h
    rw [decodeRow_store hop, decodeStore, h3]
    rfl
  case addi | slti | sltiu | xori | ori | andi =>
    obtain ⟨hop, h3, rfl, rfl, rfl⟩ := encI_eq_word.mp h
    rw [decodeRow_opImm hop, decodeOpImm, h3]
    rfl
  case slli | bclri | binvi | bseti =>
    obtain ⟨hop, h3, h7, rfl, rfl, rfl⟩ := encR_eq_word.mp h
    rw [decodeRow_opImm hop, decodeOpImm_001 h3, decodeOpImm001, h7]
    rfl
  case clz | ctz | cpop | sextB | sextH =>
    obtain ⟨hop, h3, h7, rfl, rfl, hrs2⟩ := encR_eq_word.mp h
    rw [decodeRow_opImm hop, decodeOpImm_001 h3, decodeOpImm001, h7, hrs2]
    rfl
  case srli | srai | rori | bexti =>
    obtain ⟨hop, h3, h7, rfl, rfl, rfl⟩ := encR_eq_word.mp h
    rw [decodeRow_opImm hop, decodeOpImm_101 h3, decodeOpImm101, h7]
    rfl
  case orcB | rev8 =>
    obtain ⟨hop, h3, h7, rfl, rfl, hrs2⟩ := encR_eq_word.mp h
    rw [decodeRow_opImm hop, decodeOpImm_101 h3, decodeOpImm101, h7, hrs2]
    rfl
  case add | sll | slt | sltu | xor | srl | or | and =>
    obtain ⟨hop, h3, h7, rfl, rfl, rfl⟩ := encR_eq_word.mp h
    rw [decodeRow_op hop, decodeOp_base h7, decodeOpBase, h3]
    rfl
  case sub | sra | xnor | orn | andn =>
    obtain ⟨hop, h3, h7, rfl, rfl, rfl⟩ := encR_eq_word.mp h
    rw [decodeRow_op hop, decodeOp_alt h7, decodeOpAlt, h3]
    rfl
  case mul | mulh | mulhsu | mulhu | div | divu | rem | remu =>
    obtain ⟨hop, h3, h7, rfl, rfl, rfl⟩ := encR_eq_word.mp h
    rw [decodeRow_op hop, decodeOp_mul h7, decodeOpMul, h3]
    rfl
  case clmul | clmulr | clmulh | min | minu | max | maxu =>
    obtain ⟨hop, h3, h7, rfl, rfl, rfl⟩ := encR_eq_word.mp h
    rw [decodeRow_op hop, decodeOp_minMax h7, decodeOpMinMax, h3]
    rfl
  case sh1add | sh2add | sh3add | rol | ror | bclr | bext | binv | bset =>
    obtain ⟨hop, h3, h7, rfl, rfl, rfl⟩ := encR_eq_word.mp h
    rw [decodeRow_op hop, decodeOp, h7, h3]
    rfl
  case zextH =>
    obtain ⟨hop, h3, h7, rfl, rfl, hrs2⟩ := encR_eq_word.mp h
    rw [decodeRow_op hop, decodeOp, h7, h3, hrs2]
    rfl
  case fence =>
    obtain ⟨hop, h3, rfl, rfl, rfl, rfl, rfl⟩ := encode_fence_eq_word.mp h
    rw [decodeRow_miscMem hop, decodeMiscMem, h3]
    rfl
  case fenceI =>
    obtain ⟨hop, h3, rfl, rfl, rfl⟩ := encI_eq_word.mp h
    rw [decodeRow_miscMem hop, decodeMiscMem, h3]
    rfl
  case ecall | ebreak | mret | wfi =>
    obtain ⟨hop, h3, hrd, hrs1, himm⟩ := encI_eq_word.mp h
    rw [decodeRow_system hop, decodeSystem, h3]
    show decodeSystem0 w = _
    rw [decodeSystem0, hrd, hrs1, himm]
    rfl
  case csrrw | csrrs | csrrc | csrrwi | csrrsi | csrrci =>
    obtain ⟨hop, h3, rfl, rfl, rfl⟩ := encI_eq_word.mp h
    rw [decodeRow_system hop, decodeSystem, h3]
    rfl
  case lrW =>
    obtain ⟨hop, h3, h5, rfl, rfl, rfl, rfl, hrs2⟩ := encA_eq_word.mp h
    rw [decodeRow_amo hop, decodeAmo, h3, h5, hrs2]
    rfl
  case scW | amoswapW | amoaddW | amoxorW | amoandW | amoorW | amominW | amomaxW | amominuW | amomaxuW =>
    obtain ⟨hop, h3, h5, rfl, rfl, rfl, rfl, rfl⟩ := encA_eq_word.mp h
    rw [decodeRow_amo hop, decodeAmo, h3, h5]
    rfl
  all_goals cases h

/-- Each row of the table is found from its own parcel. -/
theorem decodeHalf_encode {i : Instr} {p : Half} (hi : i.wf = true) (h : encode i = .half p) :
    decodeHalf p = .ok i := by
  cases i
  case cAddi4spn =>
    simp only [Instr.wf, Bool.and_eq_true, bne_iff_ne] at hi
    obtain ⟨hscale, hne⟩ := hi
    obtain ⟨hop, h3, rfl, rfl⟩ := (encode_cAddi4spn_eq_half hscale).mp h
    rw [decodeHalf_q0 hop, decodeQ0, h3]
    exact if_neg hne
  case cLw | cSw =>
    obtain ⟨hop, h3, rfl, rfl, rfl⟩ := (encCL_eq_half hi).mp h
    rw [decodeHalf_q0 hop, decodeQ0, h3]
    rfl
  case cNop =>
    obtain ⟨hop, h3, hrd, rfl⟩ := encCI6_eq_half.mp h
    rw [decodeHalf_q1 hop, decodeQ1, h3]
    exact if_pos hrd
  case cAddi =>
    obtain ⟨hop, h3, rfl, rfl⟩ := encCI6_eq_half.mp h
    rw [decodeHalf_q1 hop, decodeQ1, h3]
    exact if_neg (bne_iff_ne.mp hi)
  case cLi =>
    obtain ⟨hop, h3, rfl, rfl⟩ := encCI6_eq_half.mp h
    rw [decodeHalf_q1 hop, decodeQ1, h3]
    rfl
  case cLui =>
    simp only [Instr.wf, Bool.and_eq_true, bne_iff_ne] at hi
    obtain ⟨hsp, hne⟩ := hi
    obtain ⟨hop, h3, rfl, rfl⟩ := encCI6_eq_half.mp h
    rw [decodeHalf_q1 hop, decodeQ1_lui h3, decodeQ1Lui, if_neg hsp, if_neg hne]
  case cAddi16sp =>
    simp only [Instr.wf, Bool.and_eq_true, bne_iff_ne] at hi
    obtain ⟨hscale, hne⟩ := hi
    obtain ⟨hop, h3, hrd, rfl⟩ := (encode_cAddi16sp_eq_half hscale).mp h
    rw [decodeHalf_q1 hop, decodeQ1_lui h3, decodeQ1Lui, if_pos (show pRd p = 2 from hrd), if_neg hne]
  case cJal | cJ =>
    obtain ⟨hop, h3, rfl⟩ := (encCJ_eq_half hi).mp h
    rw [decodeHalf_q1 hop, decodeQ1, h3]
    rfl
  case cBeqz | cBnez =>
    obtain ⟨hop, h3, rfl, rfl⟩ := (encCB_eq_half hi).mp h
    rw [decodeHalf_q1 hop, decodeQ1, h3]
    rfl
  case cSrli | cSrai =>
    obtain ⟨hop, h3, h10, h12, rfl, rfl⟩ := encCBAlu_eq_half.mp h
    rw [decodeHalf_q1 hop, decodeQ1_alu h3, decodeQ1Alu, h10, h12]
    rfl
  case cAndi =>
    obtain ⟨hop, h3, h10, h12, rfl, hlo⟩ := encCBAlu_eq_half.mp h
    rw [decodeHalf_q1 hop, decodeQ1_alu h3, decodeQ1Alu, h10, ← pImm6_eq.mpr ⟨h12, hlo⟩]
    rfl
  case cSub | cXor | cOr | cAnd =>
    obtain ⟨hop, h3, h10, h12, h5, rfl, rfl⟩ := encCA_eq_half.mp h
    rw [decodeHalf_q1 hop, decodeQ1_alu h3, decodeQ1Alu, h10]
    show decodeQ1Reg p = _
    rw [decodeQ1Reg, h12, h5]
    rfl
  case cSlli =>
    obtain ⟨hop, h3, h12, rfl, rfl⟩ := encCI_eq_half.mp h
    rw [decodeHalf_q2 hop, decodeQ2, h3, h12]
    rfl
  case cLwsp =>
    simp only [Instr.wf, Bool.and_eq_true, bne_iff_ne] at hi
    obtain ⟨hne, hscale⟩ := hi
    obtain ⟨hop, h3, rfl, rfl⟩ := (encode_cLwsp_eq_half hscale).mp h
    rw [decodeHalf_q2 hop, decodeQ2, h3]
    exact if_neg hne
  case cSwsp =>
    obtain ⟨hop, h3, rfl, rfl⟩ := (encode_cSwsp_eq_half hi).mp h
    rw [decodeHalf_q2 hop, decodeQ2, h3]
    rfl
  case cJr =>
    obtain ⟨hop, h3, h12, rfl, hrs2⟩ := encCR_eq_half.mp h
    rw [decodeHalf_q2 hop, decodeQ2_reg h3, decodeQ2Reg, if_pos h12, if_pos hrs2, if_neg (bne_iff_ne.mp hi)]
  case cMv =>
    obtain ⟨hop, h3, h12, rfl, rfl⟩ := encCR_eq_half.mp h
    rw [decodeHalf_q2 hop, decodeQ2_reg h3, decodeQ2Reg, if_pos h12, if_neg (bne_iff_ne.mp hi)]
  case cEbreak =>
    obtain ⟨hop, h3, h12, hrd, hrs2⟩ := encCR_eq_half.mp h
    rw [decodeHalf_q2 hop, decodeQ2_reg h3, decodeQ2Reg, h12, if_neg (by decide), if_pos hrs2, if_pos hrd]
  case cJalr =>
    obtain ⟨hop, h3, h12, rfl, hrs2⟩ := encCR_eq_half.mp h
    rw [decodeHalf_q2 hop, decodeQ2_reg h3, decodeQ2Reg, h12, if_neg (by decide), if_pos hrs2,
      if_neg (bne_iff_ne.mp hi)]
  case cAdd =>
    obtain ⟨hop, h3, h12, rfl, rfl⟩ := encCR_eq_half.mp h
    rw [decodeHalf_q2 hop, decodeQ2_reg h3, decodeQ2Reg, h12, if_neg (by decide), if_neg (bne_iff_ne.mp hi)]
  all_goals cases h

/-! ## The bytes of an encoding (R104, R170) -/

theorem bytes_word_append (b0 b1 b2 b3 : Byte) : (Encoding.word (b3 ++ b2 ++ b1 ++ b0)).bytes = [b0, b1, b2, b3] := by
  simp [-Nat.reduceAdd, Encoding.bytes, BitVec.extractLsb'_append_eq_of_le, BitVec.extractLsb'_append_eq_of_add_le]

theorem bytes_half_append (b0 b1 : Byte) : (Encoding.half (b1 ++ b0)).bytes = [b0, b1] := by
  simp [-Nat.reduceAdd, Encoding.bytes, BitVec.extractLsb'_append_eq_of_le, BitVec.extractLsb'_append_eq_of_add_le]

theorem word_of_bytes (w : Word) :
    w.extractLsb' 24 8 ++ w.extractLsb' 16 8 ++ w.extractLsb' 8 8 ++ w.extractLsb' 0 8 = w := by
  simp [-Nat.reduceAdd, BitVec.extractLsb'_append_extractLsb'_eq_extractLsb']

theorem half_of_bytes (p : Half) : p.extractLsb' 8 8 ++ p.extractLsb' 0 8 = p := by
  simp [-Nat.reduceAdd, BitVec.extractLsb'_append_extractLsb'_eq_extractLsb']

/-- The opcode of every row ends in 0b11. -/
theorem low_bits_of_decodeRow {w : Word} {i : Instr} (h : decodeRow w = some i) : w.extractLsb' 0 2 = 3#2 := by
  have low : w.extractLsb' 0 2 = (fOpcode w).extractLsb' 0 2 := (slice_slice w (by decide : 0 + 2 ≤ 7)).symm
  rw [low]
  unfold decodeRow at h
  split at h
  case h_13 => cases h
  all_goals
    rename_i hop
    rw [hop]
    rfl

/-- No quadrant is 0b11. -/
theorem low_bits_of_decodeHalf {p : Half} {i : Instr} (h : decodeHalf p = .ok i) : pOp p ≠ 3#2 := by
  intro hop
  rw [decodeHalf, hop] at h
  cases h

theorem decode_bytes_word {w : Word} {i : Instr} (h : decodeRow w = some i) (rest : List Byte) :
    decode ((Encoding.word w).bytes ++ rest) = .ok (i, 4) := by
  have long : isLong (w.extractLsb' 0 8) = true := by
    rw [isLong, slice_slice w (by decide), low_bits_of_decodeRow h]
    rfl
  show decode (_ :: _ :: _ :: _ :: rest) = _
  rw [decode, if_pos long, word_of_bytes, decodeWord, h]
  rfl

theorem decode_bytes_half {p : Half} {i : Instr} (h : decodeHalf p = .ok i) (rest : List Byte) :
    decode ((Encoding.half p).bytes ++ rest) = .ok (i, 2) := by
  have short : isLong (p.extractLsb' 0 8) = false := by
    rw [isLong, slice_slice p (by decide)]
    exact beq_false_of_ne (low_bits_of_decodeHalf h)
  show decode (_ :: _ :: rest) = _
  rw [Machine.decode_half short, half_of_bytes, h]
  rfl

/-- What the decoder accepts is a word of the table or a parcel of the table. -/
theorem decode_ok_cases {bytes : List Byte} {i : Instr} {n : Nat} (h : decode bytes = .ok (i, n)) :
    (∃ b0 b1 b2 b3 rest, bytes = b0 :: b1 :: b2 :: b3 :: rest ∧ n = 4 ∧ decodeRow (b3 ++ b2 ++ b1 ++ b0) = some i) ∨
      ∃ b0 b1 rest, bytes = b0 :: b1 :: rest ∧ n = 2 ∧ decodeHalf (b1 ++ b0) = .ok i := by
  have of_map : ∀ {r : Except DecodeReject Instr} {len : Nat}, r.map (fun j => (j, len)) = .ok (i, n) →
      r = .ok i ∧ n = len := by
    intro r len hr
    cases r with
    | ok j => cases hr; exact ⟨rfl, rfl⟩
    | error e => cases hr
  unfold decode at h
  split at h
  case h_2 => cases h
  case h_1 b0 b1 rest =>
    split at h
    case isTrue =>
      split at h
      case h_2 => cases h
      case h_1 b2 b3 rest =>
        obtain ⟨hw, rfl⟩ := of_map h
        refine .inl ⟨b0, b1, b2, b3, rest, rfl, rfl, ?_⟩
        unfold decodeWord at hw
        split at hw
        case h_1 hrow => cases hw; exact hrow
        case h_2 => split at hw <;> cases hw
    case isFalse =>
      obtain ⟨hp, rfl⟩ := of_map h
      exact .inr ⟨b0, b1, rest, rfl, rfl, hp⟩

/-- Settles O2: the row of an encoding is its instruction, and the low two bits tell its length. -/
theorem decodeOfEncode : Obligations.DecodeOfEncode := by
  intro i rest hi
  cases he : encode i with
  | word w => exact decode_bytes_word (decodeRow_encode hi he) rest
  | half p => exact decode_bytes_half (decodeHalf_encode hi he) rest

/-! ## Fields by exclusion, where the decoder's last case takes what is left -/

/-- A 3-bit field that is none of 0 to 6 is 7. -/
theorem eq_seven_of_ne {x : BitVec 3} (h0 : x ≠ 0) (h1 : x ≠ 1) (h2 : x ≠ 2) (h3 : x ≠ 3) (h4 : x ≠ 4) (h5 : x ≠ 5)
    (h6 : x ≠ 6) : x = 7 := by bv_omega

/-- A 2-bit field that is none of 0 to 2 is 3. -/
theorem eq_three_of_ne : ∀ {x : BitVec 2}, x ≠ 0 → x ≠ 1 → x ≠ 2 → x = 3 := by decide

theorem eq_zero_of_ne_one : ∀ {x : BitVec 1}, x ≠ 1 → x = 0 := by decide

theorem eq_one_of_ne_zero : ∀ {x : BitVec 1}, x ≠ 0 → x = 1 := by decide

/-! ## What the decoder accepts is an encoding: words -/

section
variable {w : Word} {i : Instr}

theorem encode_decodeLoad (hop : fOpcode w = 0x03#7) (h : decodeLoad w = some i) : encode i = .word w := by
  unfold decodeLoad at h
  split at h <;> cases h <;> exact encI_eq_word.mpr ⟨hop, ‹_›, rfl, rfl, rfl⟩

theorem encode_decodeStore (hop : fOpcode w = 0x23#7) (h : decodeStore w = some i) : encode i = .word w := by
  unfold decodeStore at h
  split at h <;> cases h <;> exact encS_eq_word.mpr ⟨hop, ‹_›, rfl, rfl, rfl⟩

theorem encode_decodeBranch (hop : fOpcode w = 0x63#7) (h : decodeBranch w = some i) : encode i = .word w := by
  unfold decodeBranch at h
  split at h <;> cases h <;> exact (encB_eq_word (fImmB_even w)).mpr ⟨hop, ‹_›, rfl, rfl, rfl⟩

theorem encode_decodeMiscMem (hop : fOpcode w = 0x0F#7) (h : decodeMiscMem w = some i) : encode i = .word w := by
  unfold decodeMiscMem at h
  split at h <;> cases h
  case h_1 h3 => exact encode_fence_eq_word.mpr ⟨hop, h3, rfl, rfl, rfl, rfl, rfl⟩
  case h_2 h3 => exact encI_eq_word.mpr ⟨hop, h3, rfl, rfl, rfl⟩

theorem encode_decodeOpImm001 (hop : fOpcode w = 0x13#7) (h3 : fFunct3 w = 1#3) (h : decodeOpImm001 w = some i) :
    encode i = .word w := by
  unfold decodeOpImm001 at h
  split at h
  case h_2 h7 => split at h <;> cases h <;> exact encR_eq_word.mpr ⟨hop, h3, h7, rfl, rfl, ‹_›⟩
  all_goals cases h <;> exact encR_eq_word.mpr ⟨hop, h3, ‹_›, rfl, rfl, rfl⟩

theorem encode_decodeOpImm101 (hop : fOpcode w = 0x13#7) (h3 : fFunct3 w = 5#3) (h : decodeOpImm101 w = some i) :
    encode i = .word w := by
  unfold decodeOpImm101 at h
  split at h
  case h_5 h7 => split at h <;> cases h; exact encR_eq_word.mpr ⟨hop, h3, h7, rfl, rfl, ‹_›⟩
  case h_6 h7 => split at h <;> cases h; exact encR_eq_word.mpr ⟨hop, h3, h7, rfl, rfl, ‹_›⟩
  all_goals cases h <;> exact encR_eq_word.mpr ⟨hop, h3, ‹_›, rfl, rfl, rfl⟩

theorem encode_decodeOpImm (hop : fOpcode w = 0x13#7) (h : decodeOpImm w = some i) : encode i = .word w := by
  unfold decodeOpImm at h
  split at h
  case h_2 h3 => exact encode_decodeOpImm001 hop h3 h
  case h_6 h3 => exact encode_decodeOpImm101 hop h3 h
  case h_8 h0 h1 h2 h3 h4 h5 h6 =>
    cases h
    exact encI_eq_word.mpr ⟨hop, eq_seven_of_ne h0 h1 h2 h3 h4 h5 h6, rfl, rfl, rfl⟩
  all_goals cases h; exact encI_eq_word.mpr ⟨hop, ‹_›, rfl, rfl, rfl⟩

theorem encode_decodeOpBase (hop : fOpcode w = 0x33#7) (h7 : fFunct7 w = 0#7) : encode (decodeOpBase w) = .word w := by
  unfold decodeOpBase
  split
  case h_8 h0 h1 h2 h3 h4 h5 h6 =>
    exact encR_eq_word.mpr ⟨hop, eq_seven_of_ne h0 h1 h2 h3 h4 h5 h6, h7, rfl, rfl, rfl⟩
  all_goals exact encR_eq_word.mpr ⟨hop, ‹_›, h7, rfl, rfl, rfl⟩

theorem encode_decodeOpMul (hop : fOpcode w = 0x33#7) (h7 : fFunct7 w = 1#7) : encode (decodeOpMul w) = .word w := by
  unfold decodeOpMul
  split
  case h_8 h0 h1 h2 h3 h4 h5 h6 =>
    exact encR_eq_word.mpr ⟨hop, eq_seven_of_ne h0 h1 h2 h3 h4 h5 h6, h7, rfl, rfl, rfl⟩
  all_goals exact encR_eq_word.mpr ⟨hop, ‹_›, h7, rfl, rfl, rfl⟩

theorem encode_decodeOpAlt (hop : fOpcode w = 0x33#7) (h7 : fFunct7 w = 0b0100000#7) (h : decodeOpAlt w = some i) :
    encode i = .word w := by
  unfold decodeOpAlt at h
  split at h <;> cases h <;> exact encR_eq_word.mpr ⟨hop, ‹_›, h7, rfl, rfl, rfl⟩

theorem encode_decodeOpMinMax (hop : fOpcode w = 0x33#7) (h7 : fFunct7 w = 0b0000101#7)
    (h : decodeOpMinMax w = some i) : encode i = .word w := by
  unfold decodeOpMinMax at h
  split at h <;> cases h <;> exact encR_eq_word.mpr ⟨hop, ‹_›, h7, rfl, rfl, rfl⟩

theorem encode_decodeOp (hop : fOpcode w = 0x33#7) (h : decodeOp w = some i) : encode i = .word w := by
  unfold decodeOp at h
  split at h
  case h_1 h7 => cases h; exact encode_decodeOpBase hop h7
  case h_2 h7 => exact encode_decodeOpAlt hop h7 h
  case h_3 h7 => cases h; exact encode_decodeOpMul hop h7
  case h_4 h7 => exact encode_decodeOpMinMax hop h7 h
  case h_6 h7 =>
    split at h
    case h_1 h3 hrs2 => cases h; exact encR_eq_word.mpr ⟨hop, h3, h7, rfl, rfl, hrs2⟩
    case h_2 => cases h
  case h_11 => cases h
  all_goals
    rename_i h7
    split at h <;> cases h <;> exact encR_eq_word.mpr ⟨hop, ‹_›, h7, rfl, rfl, rfl⟩

theorem encode_decodeAmo (hop : fOpcode w = 0x2F#7) (h : decodeAmo w = some i) : encode i = .word w := by
  unfold decodeAmo at h
  split at h
  case h_2 => cases h
  case h_1 h3 =>
    split at h
    case h_1 h5 => split at h <;> cases h; exact encA_eq_word.mpr ⟨hop, h3, h5, rfl, rfl, rfl, rfl, ‹_›⟩
    all_goals cases h <;> exact encA_eq_word.mpr ⟨hop, h3, ‹_›, rfl, rfl, rfl, rfl, rfl⟩

theorem encode_decodeSystem (hop : fOpcode w = 0x73#7) (h : decodeSystem w = some i) : encode i = .word w := by
  unfold decodeSystem at h
  split at h
  case h_1 h3 =>
    unfold decodeSystem0 at h
    split at h
    case h_1 hrd hrs1 => split at h <;> cases h <;> exact encI_eq_word.mpr ⟨hop, h3, hrd, hrs1, ‹_›⟩
    case h_2 => cases h
  all_goals cases h <;> exact encI_eq_word.mpr ⟨hop, ‹_›, rfl, rfl, rfl⟩

/-- A row of the table is found from no other word than its own. -/
theorem encode_decodeRow (h : decodeRow w = some i) : encode i = .word w := by
  unfold decodeRow at h
  split at h
  case h_1 hop => exact encode_decodeLoad hop h
  case h_2 hop => exact encode_decodeMiscMem hop h
  case h_3 hop => exact encode_decodeOpImm hop h
  case h_4 hop => cases h; exact encU_eq_word.mpr ⟨hop, rfl, rfl⟩
  case h_5 hop => exact encode_decodeStore hop h
  case h_6 hop => exact encode_decodeAmo hop h
  case h_7 hop => exact encode_decodeOp hop h
  case h_8 hop => cases h; exact encU_eq_word.mpr ⟨hop, rfl, rfl⟩
  case h_9 hop => exact encode_decodeBranch hop h
  case h_10 hop => split at h <;> cases h; exact encI_eq_word.mpr ⟨hop, ‹_›, rfl, rfl, rfl⟩
  case h_11 hop => cases h; exact (encJ_eq_word (fImmJ_even w)).mpr ⟨hop, rfl, rfl⟩
  case h_12 hop => exact encode_decodeSystem hop h
  case h_13 => cases h

end

/-! ## What the decoder accepts is an encoding: parcels -/

section
variable {p : Half} {i : Instr}

theorem encode_decodeQ0 (hop : pOp p = 0#2) (h : decodeQ0 p = .ok i) : encode i = .half p := by
  unfold decodeQ0 at h
  split at h
  case h_1 h3 =>
    split at h <;> cases h
    exact (encode_cAddi4spn_eq_half (pImmAddi4spn_scaled p)).mpr ⟨hop, h3, rfl, rfl⟩
  case h_2 h3 => cases h; exact (encCL_eq_half (pImmLw_scaled p)).mpr ⟨hop, h3, rfl, rfl, rfl⟩
  case h_3 h3 => cases h; exact (encCL_eq_half (pImmLw_scaled p)).mpr ⟨hop, h3, rfl, rfl, rfl⟩
  case h_4 => cases h

theorem encode_decodeQ1Reg (hop : pOp p = 1#2) (h3 : pFunct3 p = 4#3) (h10 : p.extractLsb' 10 2 = 3#2)
    (h : decodeQ1Reg p = .ok i) : encode i = .half p := by
  unfold decodeQ1Reg at h
  split at h <;> cases h <;> exact encCA_eq_half.mpr ⟨hop, h3, h10, ‹_›, ‹_›, rfl, rfl⟩

theorem encode_decodeQ1Alu (hop : pOp p = 1#2) (h3 : pFunct3 p = 4#3) (h : decodeQ1Alu p = .ok i) :
    encode i = .half p := by
  unfold decodeQ1Alu at h
  split at h
  case h_1 h10 =>
    split at h <;> cases h
    exact encCBAlu_eq_half.mpr ⟨hop, h3, h10, eq_zero_of_ne_one ‹_›, rfl, rfl⟩
  case h_2 h10 =>
    split at h <;> cases h
    exact encCBAlu_eq_half.mpr ⟨hop, h3, h10, eq_zero_of_ne_one ‹_›, rfl, rfl⟩
  case h_3 h10 =>
    cases h
    obtain ⟨h12, hlo⟩ := pImm6_eq.mp (rfl : pImm6 p = _)
    exact encCBAlu_eq_half.mpr ⟨hop, h3, h10, h12, rfl, hlo⟩
  case h_4 h0 h1 h2 => exact encode_decodeQ1Reg hop h3 (eq_three_of_ne h0 h1 h2) h

theorem encode_decodeQ1Lui (hop : pOp p = 1#2) (h3 : pFunct3 p = 3#3) (h : decodeQ1Lui p = .ok i) :
    encode i = .half p := by
  unfold decodeQ1Lui at h
  split at h <;> split at h <;> cases h
  · exact (encode_cAddi16sp_eq_half (pImmAddi16sp_scaled p)).mpr ⟨hop, h3, ‹pRd p = 2›, rfl⟩
  · exact encCI6_eq_half.mpr ⟨hop, h3, rfl, rfl⟩

theorem encode_decodeQ1 (hop : pOp p = 1#2) (h : decodeQ1 p = .ok i) : encode i = .half p := by
  unfold decodeQ1 at h
  split at h
  case h_1 h3 =>
    split at h <;> cases h
    · exact encCI6_eq_half.mpr ⟨hop, h3, ‹pRd p = 0›, rfl⟩
    · exact encCI6_eq_half.mpr ⟨hop, h3, rfl, rfl⟩
  case h_2 h3 => cases h; exact (encCJ_eq_half (pImmJ_even p)).mpr ⟨hop, h3, rfl⟩
  case h_3 h3 => cases h; exact encCI6_eq_half.mpr ⟨hop, h3, rfl, rfl⟩
  case h_4 h3 => exact encode_decodeQ1Lui hop h3 h
  case h_5 h3 => exact encode_decodeQ1Alu hop h3 h
  case h_6 h3 => cases h; exact (encCJ_eq_half (pImmJ_even p)).mpr ⟨hop, h3, rfl⟩
  case h_7 h3 => cases h; exact (encCB_eq_half (pImmB_even p)).mpr ⟨hop, h3, rfl, rfl⟩
  case h_8 h0 h1 h2 h3 h4 h5 h6 =>
    cases h
    exact (encCB_eq_half (pImmB_even p)).mpr ⟨hop, eq_seven_of_ne h0 h1 h2 h3 h4 h5 h6, rfl, rfl⟩

theorem encode_decodeQ2Reg (hop : pOp p = 2#2) (h3 : pFunct3 p = 4#3) (h : decodeQ2Reg p = .ok i) :
    encode i = .half p := by
  unfold decodeQ2Reg at h
  split at h
  case isTrue h12 =>
    split at h
    case isTrue hrs2 => split at h <;> cases h; exact encCR_eq_half.mpr ⟨hop, h3, h12, rfl, hrs2⟩
    case isFalse => cases h; exact encCR_eq_half.mpr ⟨hop, h3, h12, rfl, rfl⟩
  case isFalse h12 =>
    have h12 := eq_one_of_ne_zero h12
    split at h
    case isTrue hrs2 =>
      split at h <;> cases h
      · exact encCR_eq_half.mpr ⟨hop, h3, h12, ‹pRd p = 0›, hrs2⟩
      · exact encCR_eq_half.mpr ⟨hop, h3, h12, rfl, hrs2⟩
    case isFalse => cases h; exact encCR_eq_half.mpr ⟨hop, h3, h12, rfl, rfl⟩

theorem encode_decodeQ2 (hop : pOp p = 2#2) (h : decodeQ2 p = .ok i) : encode i = .half p := by
  unfold decodeQ2 at h
  split at h
  case h_1 h3 => split at h <;> cases h; exact encCI_eq_half.mpr ⟨hop, h3, eq_zero_of_ne_one ‹_›, rfl, rfl⟩
  case h_2 h3 => split at h <;> cases h; exact (encode_cLwsp_eq_half (pImmLwsp_scaled p)).mpr ⟨hop, h3, rfl, rfl⟩
  case h_3 h3 => exact encode_decodeQ2Reg hop h3 h
  case h_4 h3 => cases h; exact (encode_cSwsp_eq_half (pImmSwsp_scaled p)).mpr ⟨hop, h3, rfl, rfl⟩
  case h_5 => cases h

/-- A row of the table is found from no other parcel than its own. -/
theorem encode_decodeHalf (h : decodeHalf p = .ok i) : encode i = .half p := by
  unfold decodeHalf at h
  split at h
  case h_1 hop => exact encode_decodeQ0 hop h
  case h_2 hop => exact encode_decodeQ1 hop h
  case h_3 hop => exact encode_decodeQ2 hop h
  case h_4 => cases h

end

/-- Settles O3: an accepted word or parcel is the encoding of its instruction, whose bytes are the ones consumed. -/
theorem encodeOfDecode : Obligations.EncodeOfDecode := by
  intro bytes i n h
  refine ⟨decode_wf h, ?_⟩
  rcases decode_ok_cases h with ⟨b0, b1, b2, b3, rest, rfl, rfl, hrow⟩ | ⟨b0, b1, rest, rfl, rfl, hhalf⟩
  · rw [encode_decodeRow hrow, bytes_word_append]
    exact ⟨rfl, rfl⟩
  · rw [encode_decodeHalf hhalf, bytes_half_append]
    exact ⟨rfl, rfl⟩

/-! ## The words of the table (R103) -/

/-- Bits of the table that are an instruction's encoding, with zeros above, are decoded to the instruction. -/
theorem decodeTableWord_encode {n w : Nat} {i : Instr} (rest : List Byte) (hi : i.wf = true)
    (h : tableBytes (w % 2 ^ n) = (encode i).bytes ++ rest) : decodeTableWord n w = some i := by
  rw [decodeTableWord, h, decodeOfEncode i rest hi]

/-- Settles O1: each word is the encoding of the well-formed instruction beside it. -/
theorem specWordsDecode : Obligations.SpecWordsDecode := by
  have word : ∀ {w : Nat} {i : Instr}, i.wf = true → tableBytes (w % 2 ^ 32) = (encode i).bytes ++ [] →
      decodeTableWord 32 w = some i := decodeTableWord_encode []
  have half : ∀ {p : Nat} {i : Instr}, i.wf = true → tableBytes (p % 2 ^ 16) = (encode i).bytes ++ [0, 0] →
      decodeTableWord 16 p = some i := decodeTableWord_encode [0, 0]
  exact ⟨word rfl rfl, word rfl rfl, word rfl rfl, word rfl rfl, word rfl rfl, word rfl rfl, word rfl rfl,
    word rfl rfl, word rfl rfl, word rfl rfl, word rfl rfl, half rfl rfl, half rfl rfl, half rfl rfl⟩

end Sys2Proof

/-! SUPPORT. Instructions the model does not have (spec/30_encoding.md R190, R314, R360). -/

namespace Sys2Proof.Machine

section
variable {s : State} {i : Instr} {o : Outcome}

theorem State.withA_absent (h : s.cfg.model ≠ .v3a) : s.withA i o = s.illegal i := if_neg h

theorem State.withB_absent {has : Bool} (h : s.cfg.model = .v3a ∨ has = false) : s.withB has i o = s.illegal i := by
  refine if_neg fun present => ?_
  obtain ⟨hm, hhas⟩ := present
  rcases h with h | h
  · exact hm h
  · rw [h] at hhas
    cases hhas

/-- An instruction of the A extension traps where the model is not V3A. -/
theorem Traps.of_withA (hs : s.dbg = .running) (hm : s.cfg.model ≠ .v3a) (h : exec i s = s.withA i o) :
    Traps i s (.illegalInstruction (encode i).bits) := .of_raiseExc hs (h.trans (State.withA_absent hm))

/-- An instruction of a B sub-extension traps on V3A and without the sub-extension. -/
theorem Traps.of_withB {has : Bool} (hs : s.dbg = .running) (hm : s.cfg.model = .v3a ∨ has = false)
    (h : exec i s = s.withB has i o) : Traps i s (.illegalInstruction (encode i).bits) :=
  .of_raiseExc hs (h.trans (State.withB_absent hm))

end

/-- Settles O28: the meaning of each is the common check, which raises the exception where it fails. -/
theorem absentExtensionsTrap : Obligations.AbsentExtensionsTrap := by
  intro s aq rl rd rs1 rs2 k hs
  simp only [List.forall_mem_cons, List.not_mem_nil, false_imp_iff, implies_true, and_true]
  refine ⟨fun hm => ?_, fun hm => ?_, fun hm => ?_, fun hm => ?_, fun hm => ?_⟩
  · and_intros <;> exact .of_withA hs hm rfl
  all_goals and_intros <;> exact .of_withB hs hm rfl

end Sys2Proof.Machine

/-! SUPPORT. The integer computational instructions and their compressed forms (spec/40_rv32i_compute.md R210 to R231,
spec/45_c.md R321 to R346): what each operator of the model computes in the integers, and with that the register each
instruction retires. -/

namespace Sys2Proof.Machine

/-! ## Immediates (R11, R173, R179) -/

theorem sext32_eq_ofInt {n : Nat} (v : BitVec n) : sext32 v = BitVec.ofInt 32 v.toInt := rfl

theorem zext32_eq_ofNat {n : Nat} (v : BitVec n) : zext32 v = BitVec.ofNat 32 v.toNat :=
  (BitVec.ofNat_toNat 32 v).symm

/-- Sign-extension keeps the signed value. -/
theorem toInt_sext32 {n : Nat} (v : BitVec n) (h : n ≤ 32) : (sext32 v).toInt = v.toInt :=
  BitVec.toInt_signExtend_of_le h

/-- The upper immediate of `lui` and `auipc` is its 20-bit field times 2^12. -/
theorem upperImm_eq_ofNat (imm : BitVec 20) : upperImm imm = BitVec.ofNat 32 (imm.toNat * 4096) := by
  have fits : imm.toNat * 4096 < 2 ^ 32 := by have := imm.isLt; omega
  apply BitVec.eq_of_toNat_eq
  rw [upperImm, BitVec.toNat_append, Nat.shiftLeft_eq, BitVec.toNat_ofNat, Nat.zero_mod, Nat.or_zero,
    BitVec.toNat_ofNat, Nat.mod_eq_of_lt fits]

/-- The immediate of `c.lui`, above twelve zero bits and sign-extended, is its signed field times 2^12. -/
theorem sext32_append_zeros {n : Nat} (k : BitVec n) :
    sext32 (k ++ 0#12) = BitVec.ofInt 32 (k.toInt * 4096) := by
  rw [sext32_eq_ofInt, BitVec.toInt_append_zero, Int.mul_comm]
  rfl

/-! ## Comparisons (R214, R215, R225, R226) -/

theorem boolWord_lessSigned (a b : Word) : boolWord (lessSigned a b) = if a.toInt < b.toInt then 1 else 0 := by
  simp only [boolWord, lessSigned, BitVec.slt_eq_decide, decide_eq_true_eq]

theorem boolWord_lessUnsigned (a b : Word) : boolWord (lessUnsigned a b) = if a.toNat < b.toNat then 1 else 0 := by
  simp only [boolWord, lessUnsigned, BitVec.ult_eq_decide, decide_eq_true_eq]

/-! ## Shifts (R219 to R221, R224, R228, R229) -/

/-- A left shift multiplies; the bits shifted out are dropped modulo 2^32. -/
theorem shiftLeft_eq_ofNat_mul (a : Word) (n : Nat) : a <<< n = BitVec.ofNat 32 (a.toNat * 2 ^ n) := by
  apply BitVec.eq_of_toNat_eq
  rw [BitVec.toNat_shiftLeft, BitVec.toNat_ofNat, Nat.shiftLeft_eq]

/-- A logical right shift divides the unsigned value, rounding down. -/
theorem ushiftRight_eq_ofNat_div (a : Word) (n : Nat) : a >>> n = BitVec.ofNat 32 (a.toNat / 2 ^ n) := by
  have fits : a.toNat / 2 ^ n < 2 ^ 32 := (Nat.div_le_self _ _).trans_lt a.isLt
  apply BitVec.eq_of_toNat_eq
  rw [BitVec.toNat_ushiftRight, BitVec.toNat_ofNat, Nat.mod_eq_of_lt fits, Nat.shiftRight_eq_div_pow]

/-- An arithmetic right shift divides the signed value, rounding down. -/
theorem sshiftRight_eq_ofInt_div (a : Word) (n : Nat) :
    BitVec.sshiftRight a n = BitVec.ofInt 32 (a.toInt / 2 ^ n) := by
  rw [BitVec.sshiftRight, Int.shiftRight_eq_div_pow, Nat.cast_pow, Nat.cast_ofNat]

/-- The low 5 bits of a register operand are its value modulo 32. -/
theorem shiftAmount_eq_mod (v : Word) : shiftAmount v = v.toNat % 32 := by
  rw [shiftAmount, BitVec.extractLsb'_toNat, Nat.shiftRight_zero]

/-! ## The obligations

Each value that a statement gives in the integers is read back as the model's operator; every instruction then retires
that value. -/

/-- Settles O6: sign-extending the immediate of `slti` keeps the value that the comparison reads. -/
theorem immediatesAndSetLessThan : Obligations.ImmediatesAndSetLessThan := by
  constructor
  case left =>
    intro s rd imm k
    rw [← upperImm_eq_ofNat, ← sext32_eq_ofInt, ← sext32_append_zeros]
    exact ⟨.of_retire rfl, .of_retire rfl, .of_retire rfl, .of_retire rfl⟩
  case right =>
    intro s rd rs1 rs2 imm
    rw [← sext32_eq_ofInt, ← toInt_sext32 imm (by decide)]
    simp only [← boolWord_lessSigned, ← boolWord_lessUnsigned]
    exact ⟨.of_retire rfl, .of_retire rfl, .of_retire rfl, .of_retire rfl⟩

/-- Settles O7: `c.nop` is the write of x0, which is discarded. -/
theorem sumsAndMoves : Obligations.SumsAndMoves := by
  intro s rd rs1 rs2 d e imm k u
  have nop : exec (.cNop k) s = s.retire 0 0 2 := by rw [State.retire, State.writeReg_zero]; rfl
  simp only [← sext32_eq_ofInt, ← zext32_eq_ofNat]
  exact ⟨.of_retire rfl, .of_retire rfl, .of_retire rfl, .of_retire rfl, .of_retire rfl, .of_retire rfl,
    .of_retire rfl, .of_retire rfl, .of_retire rfl, .of_retire nop⟩

/-- Settles O8: the immediates are the only operands that are not a register as it stands. -/
theorem bitwiseLogic : Obligations.BitwiseLogic := by
  intro s rd rs1 rs2 d e imm k
  simp only [← sext32_eq_ofInt]
  exact ⟨.of_retire rfl, .of_retire rfl, .of_retire rfl, .of_retire rfl, .of_retire rfl, .of_retire rfl,
    .of_retire rfl, .of_retire rfl, .of_retire rfl, .of_retire rfl⟩

/-- Settles O9: the three rules for shifts serve the amount in the instruction and the amount in `rs2` alike. -/
theorem shifts : Obligations.Shifts := by
  intro s rd rs1 rs2 d k
  simp only [← shiftAmount_eq_mod, ← shiftLeft_eq_ofNat_mul, ← ushiftRight_eq_ofNat_div, ← sshiftRight_eq_ofInt_div]
  exact ⟨.of_retire rfl, .of_retire rfl, .of_retire rfl, .of_retire rfl, .of_retire rfl, .of_retire rfl,
    .of_retire rfl, .of_retire rfl, .of_retire rfl⟩

end Sys2Proof.Machine

/-! SUPPORT. Jumps and branches and their compressed forms (spec/41_rv32i_control_mem.md R241 to R249, spec/45_c.md R326
to R345): each changes no more than the link register and the pc. -/

namespace Sys2Proof.Machine

/-! ## Conditions (R243 to R248) -/

theorem lessSigned_iff {a b : Word} : lessSigned a b = true ↔ a.toInt < b.toInt := BitVec.slt_iff_toInt_lt

theorem lessUnsigned_iff {a b : Word} : lessUnsigned a b = true ↔ a.toNat < b.toNat := BitVec.ult_iff_lt

theorem not_lessSigned_iff {a b : Word} : (!lessSigned a b) = true ↔ b.toInt ≤ a.toInt := by
  rw [Bool.not_eq_true', ← Bool.not_eq_true, lessSigned_iff, Int.not_lt]

theorem not_lessUnsigned_iff {a b : Word} : (!lessUnsigned a b) = true ↔ b.toNat ≤ a.toNat := by
  rw [Bool.not_eq_true', ← Bool.not_eq_true, lessUnsigned_iff, Nat.not_lt]

/-! ## Completed transfers of control (R241, R242, R249) -/

section
variable {i : Instr} {s : State} {rd : Reg} {v next off len : Word}

/-- Going to `next` is going on by the distance to it, so that what holds of retiring a register holds here. -/
theorem Completes.of_writeReg_setPc (h : exec i s = .next ((s.writeReg rd v).setPc next)) :
    Completes i s rd v next := by
  have distance : s.pc + (next - s.pc) = next := add_sub_cancel _ _
  have retires : exec i s = s.retire rd v (next - s.pc) := by
    rw [h, State.retire, State.advance, State.nextPc, State.writeReg_pc, distance]
  simpa only [distance] using Completes.of_retire retires

/-- A jump that links completes. -/
theorem Completes.of_jump (h : exec i s = s.jump rd next len) : Completes i s rd (s.pc + len) next :=
  .of_writeReg_setPc h

/-- An instruction that only sets the pc completes: it is one that writes x0. -/
theorem Completes.of_setPc (h : exec i s = .next (s.setPc next)) : Completes i s 0 0 next :=
  .of_writeReg_setPc h

/-- A branch completes, at the pc that its condition chooses. -/
theorem Completes.of_branch {taken : Bool} {p : Prop} [Decidable p] (cond : taken = true ↔ p)
    (h : exec i s = s.branch taken off len) : Completes i s 0 0 (if p then s.pc + off else s.pc + len) := by
  simp only [← cond]
  exact .of_setPc h

end

/-! ## The obligations -/

/-- Settles O12: each of the eight is the common branch, under the condition that its comparison decides. -/
theorem branchesChooseThePc : Obligations.BranchesChooseThePc := by
  intro s rs1 rs2 c off o
  simp only [← sext32_eq_ofInt]
  exact ⟨.of_branch beq_iff_eq rfl, .of_branch bne_iff_ne rfl, .of_branch lessSigned_iff rfl,
    .of_branch not_lessSigned_iff rfl, .of_branch lessUnsigned_iff rfl, .of_branch not_lessUnsigned_iff rfl,
    .of_branch beq_iff_eq rfl, .of_branch bne_iff_ne rfl⟩

/-- Settles O11: four are the common jump that links, `c.j` and `c.jr` only set the pc. -/
theorem jumpsLinkAndGo : Obligations.JumpsLinkAndGo := by
  intro s rd rs1 j imm c
  simp only [← sext32_eq_ofInt]
  exact ⟨.of_jump rfl, .of_jump rfl, .of_jump rfl, .of_setPc rfl, .of_setPc rfl, .of_jump rfl⟩

end Sys2Proof.Machine

/-! SUPPORT. The environment call and the breakpoints, and the return that pops no frame (spec/42_system.md R271 to
R273, spec/60_exceptions.md R440 to R444). -/

namespace Sys2Proof.Machine

/-! ## ecall (R271) -/

/-- Outside debug mode `ecall` raises the exception of the mode. -/
theorem ecall_traps {s : State} (hs : s.dbg = .running) :
    Traps .ecall s (if s.priv = .machine then .ecallFromM else .ecallFromU) := by
  refine .of_raiseExc hs ?_
  show execEcall s = _
  rw [execEcall, State.effPriv, if_pos hs]
  cases s.priv <;> rfl

/-! ## ebreak and c.ebreak (R273, R344, R572) -/

theorem exec_breakpoint {i : Instr} (hi : i = .ebreak ∨ i = .cEbreak) (s : State) : exec i s = s.breakpoint := by
  rcases hi with rfl | rfl <;> rfl

/-- The bit of dcsr that decides is the mode's: ebreakm or ebreaku (R54). -/
theorem State.ebreakToDebug_eq (s : State) :
    s.ebreakToDebug = s.csr.dcsr.getLsbD (if s.priv = .machine then 15 else 12) := by
  rw [State.ebreakToDebug]
  cases s.priv <;> rfl

section
variable {i : Instr} {s : State} (hi : i = .ebreak ∨ i = .cEbreak) (hs : s.dbg = .running)
include hi hs

/-- What the breakpoints do outside debug mode. -/
theorem exec_breakpoint_running :
    exec i s = if s.ebreakToDebug then .next (s.enterDebug 1 s.pc) else s.raiseExc (.breakpoint 0) := by
  rw [exec_breakpoint hi]
  exact if_neg (by rw [hs]; decide)

theorem breakpoint_traps (hd : s.ebreakToDebug = false) : Traps i s (.breakpoint 0) :=
  .of_raiseExc hs ((exec_breakpoint_running hi hs).trans (if_neg (by rw [hd]; decide)))

theorem breakpoint_enters_debug (hd : s.ebreakToDebug = true) : exec i s = .next (s.enterDebug 1 s.pc) :=
  (exec_breakpoint_running hi hs).trans (if_pos hd)

end

/-- Settles O18: `ecall` raises the exception of the mode, whose slot is the model's; for the breakpoints the bit of
dcsr decides between the exception and debug mode. -/
theorem ecallAndBreakpoints : Obligations.EcallAndBreakpoints := by
  constructor
  · intro s entry hs slot hc
    have traps := ecall_traps hs
    by_cases hp : s.priv = .machine
    · simp only [slot, if_pos hp] at traps hc ⊢
      exact traps entry hc
    · simp only [slot, if_neg hp] at traps hc ⊢
      exact traps entry hc
  · intro s i hi hs toDebug slot
    refine ⟨fun hd => ?_, fun hd => ?_⟩
    · exact breakpoint_traps hi hs (s.ebreakToDebug_eq.trans hd)
    · exact ⟨_, breakpoint_enters_debug hi hs (s.ebreakToDebug_eq.trans hd), rfl, s.enterDebug_enters 1 s.pc⟩

/-! ## The return with no frame to pop (R440 to R443) -/

/-- A return with no trap in progress leaves the fields of R440 as one that ends a handler does (R443). -/
theorem State.returnCore_returned (s : State) : Returned s s.returnCore := by
  have ends := s.return_returned 0 0 []
  rw [Returned, State.endHandler_pc, State.endHandler_priv, State.endHandler_csr] at ends
  obtain ⟨hpc, hpriv, hmie, hfields, -⟩ := ends
  exact ⟨hpc, hpriv, hmie, hfields, rfl⟩

section
variable {s : State} {k : Nat}

/-- With the stack switched off an empty place stays, and no register changes (R446). -/
theorem State.hpePop_of_empty (hoff : s.hpeSwitch = false) (he : s.hpe[k]? = some .empty) : s.hpePop k = s := by
  have stays : s.hpe.setIfInBounds k .empty = s.hpe := by
    obtain ⟨hk, hget⟩ := Vector.getElem?_eq_some_iff.mp he
    rw [← hget]
    ext j hj
    by_cases hjk : k = j <;> simp [hjk]
  unfold State.hpePop
  simp only [stays, he, hoff]
  split <;> rfl

/-- Clearing GIHWSTKNEN does not switch a stack on that is switched off apart from it (R441, R446). -/
theorem State.hpeEnabled_clearGihwstknen {t : State} (hm : t.cfg = s.cfg) (hp : t.pfic.cfgr = s.pfic.cfgr)
    (hi : t.csr.intsyscr = s.csr.intsyscr &&& ~~~0x20) (hoff : s.hpeSwitch = false) : t.hpeEnabled = s.hpeEnabled := by
  have bit : t.csr.intsyscr.getLsbD 0 = s.csr.intsyscr.getLsbD 0 := by rw [hi]; simp
  have switch : t.hpeSwitch = s.hpeSwitch := by unfold State.hpeSwitch; rw [hm, hp, bit]
  rw [State.hpeEnabled, State.hpeEnabled, switch, hoff]
  rfl

/-- The end of a handler that has no frame, with the stack switched off: neither the registers nor the hardware stack
change. -/
theorem State.endHandler_of_empty (hoff : s.hpeSwitch = false) (he : s.hpe[k]? = some .empty) (slot : Nat)
    (rest : List Nat) : s.endHandler slot k rest = { s with
      pfic := { s.pfic with act := s.pfic.act &&& ~~~BitVec.twoPow 256 slot }
      csr := { s.csr with intsyscr := s.csr.intsyscr &&& ~~~0x20 }
      handlers := rest
      sleep := if s.sleepsOnExit k then .asleep s.sleepDeep false else s.sleep } := by
  unfold State.endHandler
  dsimp only
  rw [State.hpePop_of_empty hoff he]
  exact State.settleHpe_same (State.hpeEnabled_clearGihwstknen rfl rfl rfl hoff)

end

/-- The active bit of the slot is cleared, every other kept. -/
theorem getLsbD_and_not_twoPow {w : Nat} (v : BitVec w) (slot : Nat) {n : Nat} (hn : n < w) :
    (v &&& ~~~BitVec.twoPow w slot).getLsbD n = (v.getLsbD n && !decide (n = slot)) := by
  simp [hn, eq_comm]

theorem State.sleepsOnExit_iff (s : State) (rest : List Nat) :
    s.sleepsOnExit rest.length = true ↔ rest = [] ∧ s.pfic.sctlr.getLsbD 1 = true ∧ s.dbg = .running := by
  rw [State.sleepsOnExit, Bool.and_eq_true, Bool.and_eq_true, decide_eq_true_iff, decide_eq_true_iff,
    List.length_eq_zero_iff, and_assoc]

/-- Settles O19: without a handler only the first steps of the return happen; with one, its end follows them. -/
theorem mretReturns : Obligations.MretReturns := by
  refine fun s hp => ⟨fun hh => ?_, fun slot rest hh hn hoff he => ?_⟩
  · have returns : exec .mret s = .next s.returnCore := by rw [exec_mret hp, State.trapReturn, hh]
    exact ⟨_, returns, s.returnCore_returned, rfl, fun _ => rfl, fun _ => rfl, rfl⟩
  · have off : s.returnCore.hpeSwitch = false := (State.hpeSwitch_congr rfl rfl rfl).trans hoff
    have ended := State.endHandler_of_empty (s := s.returnCore) off he slot rest
    refine ⟨_, mret_ends_handler hp hh hn, s.return_returned _ _ _, ?_, rfl, fun n hl => ?_, ?_, fun r => ?_,
      fun a => ?_, ?_⟩
    · rw [State.endHandler_csr]; rfl
    · rw [State.endHandler_pfic]
      exact getLsbD_and_not_twoPow _ _ hl
    · rw [ended]
      simp only [← State.sleepsOnExit_iff]
      rfl
    · rw [ended]; rfl
    · rw [State.endHandler_mem]; rfl
    · rw [ended]; rfl

end Sys2Proof.Machine

/-! SUPPORT. Multiplication and division (spec/43_m.md R290 to R298): each of the eight retires a value of the integers
that its operands denote. -/

namespace Sys2Proof.Machine

/-! ## Products (R291 to R294) -/

/-- The high half of a number modulo 2^64 is its quotient by 2^32, rounded down. -/
theorem highWord_ofInt (x : Int) : highWord (BitVec.ofInt 64 x) = BitVec.ofInt 32 (x / 2 ^ 32) := by
  apply BitVec.eq_of_toNat_eq
  rw [highWord, BitVec.extractLsb'_toNat, BitVec.toNat_ofInt, BitVec.toNat_ofInt, Nat.shiftRight_eq_div_pow]
  omega

theorem highWord_ofNat (n : Nat) : highWord (BitVec.ofNat 64 n) = BitVec.ofNat 32 (n / 2 ^ 32) := by
  rw [← BitVec.ofInt_natCast, ← BitVec.ofInt_natCast, highWord_ofInt, Int.natCast_ediv, Nat.cast_pow,
    Nat.cast_ofNat]

theorem zeroExtend_eq_ofNat {n : Nat} (v : BitVec n) (w : Nat) : v.zeroExtend w = BitVec.ofNat w v.toNat :=
  (BitVec.ofNat_toNat w v).symm

section
variable (a b : Word)

/-- The low half is that of the signed operands' product. -/
theorem mul_eq_ofInt : a * b = BitVec.ofInt 32 (a.toInt * b.toInt) := by
  rw [BitVec.ofInt_mul, BitVec.ofInt_toInt, BitVec.ofInt_toInt]

theorem highWord_mul_signed :
    highWord (a.signExtend 64 * b.signExtend 64) = BitVec.ofInt 32 (a.toInt * b.toInt / 2 ^ 32) := by
  rw [BitVec.signExtend, BitVec.signExtend, ← BitVec.ofInt_mul, highWord_ofInt]

theorem highWord_mul_signed_unsigned :
    highWord (a.signExtend 64 * b.zeroExtend 64) = BitVec.ofInt 32 (a.toInt * b.toNat / 2 ^ 32) := by
  rw [BitVec.signExtend, zeroExtend_eq_ofNat, ← BitVec.ofInt_natCast, ← BitVec.ofInt_mul, highWord_ofInt]

theorem highWord_mul_unsigned :
    highWord (a.zeroExtend 64 * b.zeroExtend 64) = BitVec.ofNat 32 (a.toNat * b.toNat / 2 ^ 32) := by
  rw [zeroExtend_eq_ofNat, zeroExtend_eq_ofNat, ← BitVec.ofNat_mul, highWord_ofNat]

end

/-! ## Quotients and remainders (R295 to R298)

The overflow is no case of its own for a divisor that is not zero: the quotient 2^31 of -2^31 by -1 is -2^31 modulo
2^32. -/

section
variable {a b : Word}

theorem divSigned_of_eq_zero (hb : b = 0) : divSigned a b = 0xFFFFFFFF := if_pos hb

theorem divUnsigned_of_eq_zero (hb : b = 0) : divUnsigned a b = 0xFFFFFFFF := if_pos hb

theorem remSigned_of_eq_zero (hb : b = 0) : remSigned a b = a := if_pos hb

theorem remUnsigned_of_eq_zero (hb : b = 0) : remUnsigned a b = a := if_pos hb

theorem divSigned_of_ne_zero (hb : b ≠ 0) : divSigned a b = BitVec.ofInt 32 (a.toInt.tdiv b.toInt) := by
  rw [divSigned, if_neg hb]
  split
  case isTrue overflow => obtain ⟨rfl, rfl⟩ := overflow; decide
  case isFalse => rfl

theorem divUnsigned_of_ne_zero (hb : b ≠ 0) : divUnsigned a b = BitVec.ofNat 32 (a.toNat / b.toNat) := if_neg hb

theorem remSigned_of_ne_zero (hb : b ≠ 0) : remSigned a b = BitVec.ofInt 32 (a.toInt.tmod b.toInt) := by
  rw [remSigned, if_neg hb, Int.tmod_def]
  split
  case isTrue overflow => obtain ⟨rfl, rfl⟩ := overflow; decide
  case isFalse => rfl

theorem remUnsigned_of_ne_zero (hb : b ≠ 0) : remUnsigned a b = BitVec.ofNat 32 (a.toNat % b.toNat) := if_neg hb

end

/-- The remainder of a division rounded towards zero is smaller than the divisor. -/
theorem abs_tmod_lt_abs (m : Int) {n : Int} (hn : n ≠ 0) : |m.tmod n| < |n| := by
  rw [Int.abs_eq_natAbs, Int.abs_eq_natAbs, Int.natAbs_tmod, Nat.cast_lt]
  exact Nat.mod_lt _ (Int.natAbs_pos.mpr hn)

/-- The remainder of a division rounded towards zero is zero or has the dividend's sign. -/
theorem tmod_mul_self_nonneg (m n : Int) : 0 ≤ m.tmod n * m := by
  rcases Int.le_total 0 m with hm | hm
  · exact mul_nonneg (Int.tmod_nonneg n hm) hm
  · have negated : 0 ≤ (-m).tmod n := Int.tmod_nonneg n (Int.neg_nonneg_of_nonpos hm)
    rw [Int.neg_tmod, Int.neg_nonneg] at negated
    exact mul_nonneg_of_nonpos_of_nonpos negated hm

/-! ## The obligation -/

/-- What an instruction retires may be given by another name of the same value. -/
theorem Completes.of_retire_eq {i : Instr} {s : State} {rd : Reg} {u v len : Word} (value : u = v)
    (h : exec i s = s.retire rd u len) : Completes i s rd v (s.pc + len) :=
  value ▸ .of_retire h

/-- Settles O10: for a divisor that is not zero the quotient and the remainder are those of the division rounded towards
zero. -/
theorem productsAndDivisions : Obligations.ProductsAndDivisions := by
  refine ⟨fun s rd rs1 rs2 => ?products, fun s rd rs1 rs2 =>
    ⟨fun hb => ?byZero, fun hb => ?signed, fun hb => ?unsigned⟩⟩
  case products =>
    exact ⟨.of_retire_eq (mul_eq_ofInt _ _) rfl, .of_retire_eq (highWord_mul_signed _ _) rfl,
      .of_retire_eq (highWord_mul_signed_unsigned _ _) rfl, .of_retire_eq (highWord_mul_unsigned _ _) rfl⟩
  case byZero =>
    exact ⟨.of_retire_eq (divSigned_of_eq_zero hb) rfl, .of_retire_eq (divUnsigned_of_eq_zero hb) rfl,
      .of_retire_eq (remSigned_of_eq_zero hb) rfl, .of_retire_eq (remUnsigned_of_eq_zero hb) rfl⟩
  case signed =>
    have divisor : (s.readReg rs2).toInt ≠ 0 := BitVec.toInt_zero ▸ BitVec.toInt_ne.mpr hb
    exact ⟨_, _, (Int.mul_tdiv_add_tmod _ _).symm, abs_tmod_lt_abs _ divisor, tmod_mul_self_nonneg _ _,
      .of_retire_eq (divSigned_of_ne_zero hb) rfl, .of_retire_eq (remSigned_of_ne_zero hb) rfl⟩
  case unsigned =>
    have divisor : 0 < (s.readReg rs2).toNat := Nat.pos_of_ne_zero (BitVec.toNat_zero ▸ BitVec.toNat_ne_iff_ne.mpr hb)
    exact ⟨_, _, (Nat.div_add_mod _ _).symm, Nat.mod_lt _ divisor,
      .of_retire_eq (divUnsigned_of_ne_zero hb) rfl, .of_retire_eq (remUnsigned_of_ne_zero hb) rfl⟩

end Sys2Proof.Machine

/-! SUPPORT. The atomics of V3A that reach memory (spec/44_a.md R300 to R316): an AMO and an `sc.w` that succeeds are
register writes followed by a store of a word; an `sc.w` that fails is the register write alone. -/

namespace Sys2Proof.Machine

/-! ## Words and registers (R31, R103) -/

theorem load_word (s : State) (a : Word) : Memory.load s.mem .word a = wordAt s a := rfl

/-- A register write made on another state with the same registers. -/
theorem WritesReg.of_regs {s u t : State} {rd : Reg} {v : Word} (hu : u.regs = s.regs)
    (ht : t.regs = (u.writeReg rd v).regs) : WritesReg s t rd v := by
  intro r
  rw [State.readReg_congr ht, State.readReg_writeReg, State.readReg_congr hu]

/-- A store made on another state with the same memory. -/
theorem WritesBytes.of_storeMemory {s u : State} (hs : MemoryCanonical s) (hu : u.mem = s.mem) (w : Width)
    (a v : Word) : WritesBytes s (u.storeMemory w a v) a (lowBytes w v) :=
  .of_writeCells hs (lowBytes_length_le w v) (by
    rw [State.storeMemory_mem, hu, Memory.store, storeCells_eq_byteCells])

/-! ## The AMOs (R302, R305 to R313, R316) -/

/-- An AMO that reaches memory writes `rd` and stores the combined word, from the registers as they were. -/
theorem ReachesMemory.amoInstr {s : State} {rs1 : Reg} (h : ReachesMemory s .amo .word (s.readReg rs1))
    (f : Word → Word → Word) (rd rs2 : Reg) :
    s.amoInstr f rd rs2 rs1 = .next (((s.writeReg rd (wordAt s (s.readReg rs1))).advance 4).storeMemory .word
      (s.readReg rs1) (f (wordAt s (s.readReg rs1)) (s.readReg rs2))) := by
  obtain ⟨-, -, -, ht⟩ := id h
  have reached : ((s.writeReg rd (wordAt s (s.readReg rs1))).advance 4).target (s.readReg rs1) = .memory :=
    (State.target_congr (by simp) _).trans ht
  simp only [State.amoInstr, State.amoData, h.checkAccess, Res.bind, State.readTarget_memory ht, Res.asStore,
    load_word, State.writeTarget_memory reached, State.run]

/-- An AMO instruction that reaches memory completes. -/
theorem Updates.of_amoInstr {i : Instr} {s : State} {f : Word → Word → Word} {rd rs2 rs1 : Reg} {v : Word}
    (hm : MemoryCanonical s) (h : ReachesMemory s .amo .word (s.readReg rs1))
    (hi : exec i s = s.amoInstr f rd rs2 rs1) (value : f (wordAt s (s.readReg rs1)) (s.readReg rs2) = v) :
    Updates i s rd (s.readReg rs1) v := by
  subst value
  refine ⟨_, hi.trans (h.amoInstr f rd rs2), .of_regs rfl rfl, .of_storeMemory hm (by simp) .word _ _, by simp, ?_,
    ?_⟩
  · rw [State.writeReg_eq]; rfl
  · have kept := State.storedAt_keeps ((s.writeReg rd (wordAt s (s.readReg rs1))).advance 4) (s.readReg rs1)
    rwa [KeepsOtherReservation, State.advance_resv, State.writeReg_resv] at kept

/-! The comparison of a minimum or a maximum picks the operand that is the extreme of the integers (R310 to R313). -/

section
variable (a b : Word)

theorem ite_lessSigned_eq_min :
    (if lessSigned a b then a else b) = BitVec.ofInt 32 (Min.min a.toInt b.toInt) := by
  simp only [lessSigned_iff, min_def_lt, apply_ite (BitVec.ofInt 32), BitVec.ofInt_toInt]

theorem ite_lessSigned_eq_max :
    (if lessSigned b a then a else b) = BitVec.ofInt 32 (Max.max a.toInt b.toInt) := by
  simp only [lessSigned_iff, max_comm a.toInt, max_def_lt, apply_ite (BitVec.ofInt 32), BitVec.ofInt_toInt]

theorem ite_lessUnsigned_eq_min :
    (if lessUnsigned a b then a else b) = BitVec.ofNat 32 (Min.min a.toNat b.toNat) := by
  simp only [lessUnsigned_iff, min_def_lt, apply_ite (BitVec.ofNat 32), BitVec.ofNat_toNat, BitVec.setWidth_eq]

theorem ite_lessUnsigned_eq_max :
    (if lessUnsigned b a then a else b) = BitVec.ofNat 32 (Max.max a.toNat b.toNat) := by
  simp only [lessUnsigned_iff, max_comm a.toNat, max_def_lt, apply_ite (BitVec.ofNat 32), BitVec.ofNat_toNat,
    BitVec.setWidth_eq]

end

/-- Settles O27: each AMO is the common operation with its own combining function, which is that of the integers. -/
theorem atomicUpdates : Obligations.AtomicUpdates := by
  intro s aq rl rd rs1 rs2 hA hm a t v h
  have common := State.withA_v3a hA
  exact ⟨.of_amoInstr hm h (common _ _) rfl, .of_amoInstr hm h (common _ _) rfl,
    .of_amoInstr hm h (common _ _) rfl, .of_amoInstr hm h (common _ _) rfl, .of_amoInstr hm h (common _ _) rfl,
    .of_amoInstr hm h (common _ _) (ite_lessSigned_eq_min t v),
    .of_amoInstr hm h (common _ _) (ite_lessSigned_eq_max t v),
    .of_amoInstr hm h (common _ _) (ite_lessUnsigned_eq_min t v),
    .of_amoInstr hm h (common _ _) (ite_lessUnsigned_eq_max t v)⟩

/-! ## `lr.w` (R303) -/

theorem ReachesMemory.exec_lrW {s : State} {rs1 : Reg} (hA : s.cfg.model = .v3a)
    (h : ReachesMemory s .load .word (s.readReg rs1)) (aq rl : Bool) (rd : Reg) :
    exec (.lrW aq rl rd rs1) s =
      ({ s with resv := some ⟨s.readReg rs1, true⟩ } : State).retire rd (wordAt s (s.readReg rs1)) 4 := by
  obtain ⟨-, -, -, ht⟩ := id h
  simp only [exec_lrW_v3a hA, State.loadData, h.checkAccess, Res.bind, State.readTarget_memory ht, load_word,
    State.run]

/-! ## `sc.w` (R301, R304) -/

theorem State.storedAt_of_unreserved {s : State} (h : s.resv = none) (a : Word) : s.storedAt a = s := by
  have kept : (s.storedAt a).resv = s.resv := s.storedAt_keeps a fun r hr => by rw [h] at hr; cases hr
  exact congrArg (fun r => ({ s with resv := r } : State)) kept

/-! Below `u` is the state after the test of the reservation, which uses no more than a free value. -/

section
variable {s u : State} (hu : SameOrDrawn s u) (rd : Reg) (code : Word)
include hu

theorem SameOrDrawn.scDone_writesReg : WritesReg s (u.scDone rd code) rd code :=
  have regs : u.regs = s.regs := by rw [hu.eq]
  .of_regs (u := { u with resv := none }) regs rfl

theorem SameOrDrawn.scDone_mem : (u.scDone rd code).mem = s.mem := by rw [State.scDone_eq hu]

/-- The store of an `sc.w` finds no reservation left. -/
theorem SameOrDrawn.scDone_storeMemory_eq (w : Width) (a v : Word) :
    (u.scDone rd code).storeMemory w a v = { s with
      regs := (u.scDone rd code).regs
      pc := s.pc + 4
      mem := Memory.store s.mem w a v
      stale := overwritten s.mem (storeCells w a v) ++ s.stale
      resv := none
      freeIndex := u.freeIndex } := by
  have unreserved : (u.scDone rd code).storedAt a = u.scDone rd code := by
    refine State.storedAt_of_unreserved ?_ a
    rw [State.scDone_eq hu]
  rw [State.storeMemory, unreserved, State.writeBytes, State.scDone_eq hu]
  rfl

end

/-! The test of the reservation, by what is reserved (R301). -/

section
variable {s : State} {a : Word}

theorem State.scOutcome_test {u : State} {b : Bool} (h : s.scOutcome a = (b, u)) : SameOrDrawn s u := by
  have test := s.scOutcome_cases a
  rwa [h] at test

theorem State.scOutcome_certain (h : s.resv = some ⟨a, true⟩) : s.scOutcome a = (true, s) := by
  simp [State.scOutcome, h]

theorem State.scOutcome_uncertain (h : s.resv = some ⟨a, false⟩) :
    s.scOutcome a = (s.free.getLsbD 0, s.drawn) := by
  simp [State.scOutcome, h]

theorem State.scOutcome_unreserved (h : ∀ r, s.resv = some r → r.addr ≠ a) : s.scOutcome a = (false, s) := by
  unfold State.scOutcome
  split
  case h_1 => rfl
  case h_2 r hr => exact if_neg (h r hr)

end

section
variable {s u : State} {rs1 : Reg} (hA : s.cfg.model = .v3a)
include hA

/-- An `sc.w` whose test succeeds and whose store reaches memory writes 0 and makes that store. -/
theorem ReachesMemory.exec_scW (h : ReachesMemory s .store .word (s.readReg rs1)) (hm : MemoryCanonical s)
    (ho : s.scOutcome (s.readReg rs1) = (true, u)) (aq rl : Bool) (rd rs2 : Reg) :
    ∃ t, exec (.scW aq rl rd rs2 rs1) s = .next t ∧ WritesReg s t rd 0 ∧
      WritesBytes s t (s.readReg rs1) (bytesOfWord (s.readReg rs2)) ∧ t.pc = s.pc + 4 ∧ t.resv = none ∧
      t = { s with
        regs := t.regs, pc := t.pc, mem := t.mem, stale := t.stale, resv := none, freeIndex := u.freeIndex } := by
  obtain ⟨-, ha, -, ht⟩ := id h
  have hu : SameOrDrawn s u := State.scOutcome_test ho
  have reached : (u.scDone rd 0).target (s.readReg rs1) = .memory :=
    (State.target_congr (by rw [State.scDone_eq hu]) _).trans ht
  have frame := hu.scDone_storeMemory_eq rd 0 .word (s.readReg rs1) (s.readReg rs2)
  refine ⟨(u.scDone rd 0).storeMemory .word (s.readReg rs1) (s.readReg rs2), (State.withA_v3a hA _ _).trans ?_,
    hu.scDone_writesReg rd 0, .of_storeMemory hm (hu.scDone_mem rd 0) .word _ _, congrArg State.pc frame,
    congrArg State.resv frame, by rw [frame]⟩
  rw [if_neg (by rw [ha]; decide), ho, if_pos rfl]
  simp only [State.storeData, h.checkAccess, Res.bind, State.writeTarget_memory reached, State.run]

/-- An `sc.w` whose test fails writes 1 and stores nothing. -/
theorem exec_scW_fails (ha : aligned .word (s.readReg rs1) = true) (ho : s.scOutcome (s.readReg rs1) = (false, u))
    (aq rl : Bool) (rd rs2 : Reg) :
    ∃ t, exec (.scW aq rl rd rs2 rs1) s = .next t ∧ WritesReg s t rd 1 ∧ SameMemory s t ∧ t.pc = s.pc + 4 ∧
      t.resv = none ∧ t = { s with regs := t.regs, pc := t.pc, resv := none, freeIndex := u.freeIndex } := by
  have hu : SameOrDrawn s u := State.scOutcome_test ho
  have frame := State.scDone_eq hu rd 1
  refine ⟨_, (State.withA_v3a hA _ _).trans ?_, hu.scDone_writesReg rd 1, fun _ => by rw [hu.scDone_mem],
    congrArg State.pc frame, congrArg State.resv frame, by rw [frame]⟩
  rw [if_neg (by rw [ha]; decide), ho, if_neg Bool.false_ne_true]

end

/-- Settles O26: the reservation decides the test of `sc.w`, and the test its outcome. -/
theorem loadReservedStoreConditional : Obligations.LoadReservedStoreConditional := by
  constructor
  case left =>
    intro s aq rl rd rs1 hA a h
    refine ⟨_, h.exec_lrW hA aq rl rd, .of_regs (u := { s with resv := some ⟨a, true⟩ }) rfl rfl, by simp, ?_,
      fun _ => by simp, ?_⟩
    · rw [State.advance_resv, State.writeReg_resv]
    · rw [State.writeReg_eq]; rfl
  case right =>
    intro s aq rl rd rs1 rs2 hA hm a
    refine ⟨fun hr h => ?certain, fun ha hr => ?unreserved, fun hr h => ?uncertain⟩
    case certain =>
      exact h.exec_scW hA hm (State.scOutcome_certain hr) aq rl rd rs2
    case unreserved =>
      obtain ⟨t, hx, hreg, hmem, hpc, -, frame⟩ :=
        exec_scW_fails hA (aligned_word_iff.mpr ha) (State.scOutcome_unreserved hr) aq rl rd rs2
      exact ⟨t, hx, hreg, hmem, hpc, frame⟩
    case uncertain =>
      have test := State.scOutcome_uncertain hr
      cases hb : s.free.getLsbD 0 with
      | true =>
        obtain ⟨t, hx, hreg, hbytes, hpc, hresv, frame⟩ := h.exec_scW hA hm (hb ▸ test) aq rl rd rs2
        exact ⟨t, hx, hpc, hresv, .inl ⟨hreg, hbytes⟩, by rw [frame]⟩
      | false =>
        obtain ⟨-, ha, -, -⟩ := h
        obtain ⟨t, hx, hreg, hmem, hpc, hresv, frame⟩ := exec_scW_fails hA ha (hb ▸ test) aq rl rd rs2
        exact ⟨t, hx, hpc, hresv, .inr ⟨hreg, hmem⟩, by rw [frame]⟩

end Sys2Proof.Machine

/-! SUPPORT. The bit-manipulation candidates Zba, Zbb, Zbc and Zbs where the model has them (spec/46_b.md R360 to R392):
what each operator of the model does to a bit, or to the integer a word denotes, and with that the register each
instruction retires. -/

namespace Sys2Proof.Machine

/-! ## Completed instructions (R360) -/

theorem State.withB_present {s : State} {has : Bool} (hm : s.cfg.model ≠ .v3a) (hhas : has = true) (i : Instr)
    (o : Outcome) : s.withB has i o = o := if_pos ⟨hm, hhas⟩

/-- An instruction of a B sub-extension that the model has completes. -/
theorem Completes.of_withB {i : Instr} {s : State} {has : Bool} {rd : Reg} {u v len : Word} (hm : s.cfg.model ≠ .v3a)
    (hhas : has = true) (value : u = v) (h : exec i s = s.withB has i (s.retire rd u len)) :
    Completes i s rd v (s.pc + len) :=
  .of_retire_eq value (h.trans (State.withB_present hm hhas _ _))

/-! ## Address sums and carry-less products (R361 to R363, R382 to R384) -/

theorem shiftLeft_eq_twoPow_mul (a : Word) (n : Nat) : a <<< n = BitVec.twoPow 32 n * a := by
  rw [BitVec.shiftLeft_eq_mul_twoPow, BitVec.mul_comm]

/-- Bit `n` of the product by the low `k` bits of `b` is the exclusive or over those bits. -/
theorem getLsbD_carrylessProduct (a b : Word) {n : Nat} (hn : n < 64) (k : Nat) :
    (carrylessProduct a b k).getLsbD n =
      (List.range k).foldl (fun acc k => acc ^^ (b.getLsbD k && decide (k ≤ n) && a.getLsbD (n - k))) false := by
  induction k with
  | zero => rw [carrylessProduct]; exact BitVec.getLsbD_zero
  | succ k ih =>
    have copy : (if b.getLsbD k then a.zeroExtend 64 <<< k else 0).getLsbD n =
        (b.getLsbD k && decide (k ≤ n) && a.getLsbD (n - k)) := by
      cases b.getLsbD k with
      | false => simp
      | true => simp [hn, ← decide_not]
    rw [carrylessProduct, BitVec.getLsbD_xor, ih, copy, List.range_succ, List.foldl_concat]

/-- A word cut from the carry-less product at `start` holds the bits from there on. -/
theorem getLsbD_extract_carrylessProduct (a b : Word) {start j : Nat} (hs : start ≤ 32) (hj : j < 32) :
    ((carrylessProduct a b 32).extractLsb' start 32).getLsbD j = clmulBit a b (j + start) := by
  rw [BitVec.getLsbD_extractLsb', decide_eq_true hj, Bool.true_and, Nat.add_comm,
    getLsbD_carrylessProduct a b (by omega), clmulBit]

/-- Settles O29: a shift by 1, 2 or 3 is a product; the three carry-less products are words of one 64-bit product. -/
theorem addressSumsAndCarrylessProducts : Obligations.AddressSumsAndCarrylessProducts := by
  constructor
  case left =>
    intro s rd rs1 rs2 hm hz
    have sum (k : Nat) : s.readReg rs2 + s.readReg rs1 <<< k = s.readReg rs2 + BitVec.twoPow 32 k * s.readReg rs1 :=
      congrArg (s.readReg rs2 + ·) (shiftLeft_eq_twoPow_mul _ k)
    exact ⟨.of_withB hm hz (sum 1) rfl, .of_withB hm hz (sum 2) rfl, .of_withB hm hz (sum 3) rfl⟩
  case right =>
    intro s rd rs1 rs2 hm hz a b
    have word {start : Nat} (hs : start ≤ 32) (j : Nat) (hj : j < 32) :=
      getLsbD_extract_carrylessProduct a b hs hj
    exact ⟨⟨_, .of_withB hm hz rfl rfl, word (by decide)⟩, ⟨_, .of_withB hm hz rfl rfl, word (by decide)⟩,
      ⟨_, .of_withB hm hz rfl rfl, word (by decide)⟩⟩

/-! ## Inverted logic (R364 to R366) -/

section
variable (a b : Word) {j : Nat} (hj : j < 32)
include hj

theorem getLsbD_and_not : (a &&& ~~~b).getLsbD j = (a.getLsbD j && !b.getLsbD j) := by
  rw [BitVec.getLsbD_and, BitVec.getLsbD_not, decide_eq_true hj, Bool.true_and]

theorem getLsbD_or_not : (a ||| ~~~b).getLsbD j = (a.getLsbD j || !b.getLsbD j) := by
  rw [BitVec.getLsbD_or, BitVec.getLsbD_not, decide_eq_true hj, Bool.true_and]

theorem getLsbD_not_xor : (~~~(a ^^^ b)).getLsbD j = (a.getLsbD j == b.getLsbD j) := by
  rw [BitVec.getLsbD_not, BitVec.getLsbD_xor, decide_eq_true hj, Bool.true_and]
  exact Bool.not_not _

end

/-! ## Counts (R367 to R369) -/

/-- `n` counts the 0 bits above the highest 1 bit: the highest `n` bits are 0, and the next, if there is one, is 1. -/
theorem leadingZeros_spec (v : Word) : ∃ n, n ≤ 32 ∧ leadingZeros v = BitVec.ofNat 32 n ∧
    (∀ j, j < n → v.getLsbD (31 - j) = false) ∧ (n < 32 → v.getLsbD (31 - n) = true) := by
  by_cases hv : v = 0
  case pos => exact ⟨32, le_rfl, if_pos hv, fun _ _ => by rw [hv]; exact BitVec.getLsbD_zero, nofun⟩
  case neg =>
    have nonzero : v.toNat ≠ 0 := BitVec.toNat_ne_iff_ne.mpr hv
    have bound : v.toNat.log2 < 32 := (Nat.log2_lt nonzero).mpr v.isLt
    refine ⟨31 - v.toNat.log2, by omega, if_neg hv, fun j hj => ?above, fun _ => ?highest⟩
    case above =>
      have beyond : v.toNat.log2 + 1 ≤ 31 - j := by omega
      rw [← BitVec.testBit_toNat]
      exact Nat.testBit_lt_two_pow (Nat.lt_log2_self.trans_le (Nat.pow_le_pow_right two_pos beyond))
    case highest =>
      have place : 31 - (31 - v.toNat.log2) = v.toNat.log2 := by omega
      rw [place, ← BitVec.testBit_toNat]
      exact Nat.testBit_log2 nonzero

theorem zerosBelow_le (fuel v : Nat) : zerosBelow fuel v ≤ fuel := by
  induction fuel generalizing v with
  | zero => exact le_rfl
  | succ fuel ih =>
    rw [zerosBelow]
    split
    case isTrue => exact Nat.zero_le _
    case isFalse => exact Nat.succ_le_succ (ih _)

theorem testBit_of_lt_zerosBelow {fuel v j : Nat} (h : j < zerosBelow fuel v) : v.testBit j = false := by
  induction fuel generalizing v j with
  | zero => cases h
  | succ fuel ih =>
    rw [zerosBelow] at h
    split at h
    case isTrue => cases h
    case isFalse even =>
      cases j with
      | zero => rw [Nat.testBit_zero, decide_eq_false even]
      | succ j => rw [Nat.testBit_succ]; exact ih (Nat.lt_of_succ_lt_succ h)

theorem testBit_zerosBelow {fuel v : Nat} (h : zerosBelow fuel v < fuel) : v.testBit (zerosBelow fuel v) = true := by
  induction fuel generalizing v with
  | zero => cases h
  | succ fuel ih =>
    rw [zerosBelow] at h ⊢
    split at h
    case isTrue odd => rw [if_pos odd, Nat.testBit_zero, decide_eq_true odd]
    case isFalse even => rw [if_neg even, Nat.testBit_succ]; exact ih (Nat.lt_of_succ_lt_succ h)

/-- The recursion of `onesIn` on the halved value counts the 1 bits. -/
theorem onesIn_eq_countP (fuel v : Nat) : onesIn fuel v = (List.range fuel).countP v.testBit := by
  induction fuel generalizing v with
  | zero => rfl
  | succ fuel ih =>
    have halved : v.testBit ∘ Nat.succ = (v / 2).testBit := funext (Nat.testBit_succ v)
    have lowest : (if v.testBit 0 = true then 1 else 0) = v % 2 := by
      simp only [Nat.testBit_zero, decide_eq_true_eq]
      split <;> omega
    rw [onesIn, ih, List.range_succ_eq_map, List.countP_cons, List.countP_map, halved, lowest, Nat.add_comm]

theorem onesIn_toNat (v : Word) (fuel : Nat) :
    onesIn fuel v.toNat = ((List.range fuel).filter fun j => v.getLsbD j).length := by
  rw [onesIn_eq_countP, List.countP_eq_length_filter]
  rfl

/-- Settles O30: the extremes are those of the AMOs, with the operands the other way round for the larger one. -/
theorem logicExtremesAndCounts : Obligations.LogicExtremesAndCounts := by
  constructor
  case left =>
    intro s rd rs1 rs2 hm hz a b
    refine ⟨⟨_, .of_withB hm hz rfl rfl, fun _ => getLsbD_and_not a b⟩,
      ⟨_, .of_withB hm hz rfl rfl, fun _ => getLsbD_or_not a b⟩,
      ⟨_, .of_withB hm hz rfl rfl, fun _ => getLsbD_not_xor a b⟩, ?_, ?_,
      .of_withB hm hz (ite_lessSigned_eq_min a b) rfl, .of_withB hm hz (ite_lessUnsigned_eq_min a b) rfl⟩
    · rw [max_comm]
      exact .of_withB hm hz (ite_lessSigned_eq_max b a) rfl
    · rw [max_comm]
      exact .of_withB hm hz (ite_lessUnsigned_eq_max b a) rfl
  case right =>
    intro s rd rs1 hm hz a
    obtain ⟨n, bound, value, zeros, one⟩ := leadingZeros_spec a
    have ones : BitVec.ofNat 32 (onesIn 32 a.toNat) = _ := congrArg (BitVec.ofNat 32) (onesIn_toNat a 32)
    exact ⟨⟨n, bound, .of_withB hm hz value rfl, zeros, one⟩,
      ⟨zerosBelow 32 a.toNat, zerosBelow_le _ _, .of_withB hm hz rfl rfl, fun _ => testBit_of_lt_zerosBelow,
        testBit_zerosBelow⟩,
      .of_withB hm hz ones rfl⟩

/-! ## Extensions (R374 to R376) -/

theorem zext32_extractLsb'_zero (a : Word) (len : Nat) :
    zext32 (a.extractLsb' 0 len) = BitVec.ofNat 32 (a.toNat % 2 ^ len) := by
  rw [zext32_eq_ofNat, BitVec.extractLsb'_toNat, Nat.shiftRight_zero]

/-! ## Rotations (R377 to R379) -/

theorem bitIndex_eq_mod (v : Word) : bitIndex v = v.toNat % 32 := shiftAmount_eq_mod v

section
variable (v : Word) {k j : Nat} (hk : k < 32) (hj : j < 32)
include hk

include hj in
theorem getLsbD_rotateL : (rotateL v k).getLsbD j = v.getLsbD ((j + 32 - k) % 32) := by
  rw [rotateL, BitVec.getLsbD_or, BitVec.getLsbD_shiftLeft, BitVec.getLsbD_ushiftRight, decide_eq_true hj,
    Bool.true_and]
  by_cases below : j < k
  case pos =>
    have wrapped : (32 - k) % 32 + j = (j + 32 - k) % 32 := by omega
    simp [below, wrapped]
  case neg =>
    have moved : (j + 32 - k) % 32 = j - k := by omega
    rw [decide_eq_false below, Bool.not_false, Bool.true_and, moved]
    rcases Nat.eq_zero_or_pos k with rfl | pos
    · simp
    · have outside : 32 ≤ (32 - k) % 32 + j := by omega
      rw [BitVec.getLsbD_of_ge _ _ outside, Bool.or_false]

/-- A rotation right is a rotation left by the rest of the word. -/
theorem rotateR_eq_rotateL : rotateR v k = rotateL v ((32 - k) % 32) := by
  have back : (32 - (32 - k) % 32) % 32 = k := by omega
  rw [rotateR, rotateL, back, BitVec.or_comm]

include hj in
theorem getLsbD_rotateR : (rotateR v k).getLsbD j = v.getLsbD ((j + k) % 32) := by
  have index : (j + 32 - (32 - k) % 32) % 32 = (j + k) % 32 := by omega
  rw [rotateR_eq_rotateL v hk, getLsbD_rotateL v (Nat.mod_lt _ (by decide)) hj, index]

end

/-! ## Byte operations (R380, R381) -/

/-- Bit `j` of a word put together from bytes is in byte `j / 8`. -/
theorem getLsbD_of_bytes (f : Nat → Byte) {j : Nat} (hj : j < 32) :
    (f 3 ++ f 2 ++ f 1 ++ f 0).getLsbD j = (f (j / 8)).getLsbD (j % 8) := by
  have place : j / 8 = 0 ∧ j % 8 = j ∨ j / 8 = 1 ∧ j % 8 = j - 8 ∨ j / 8 = 2 ∧ j % 8 = j - 8 - 8 ∨
      j / 8 = 3 ∧ j % 8 = j - 8 - 8 - 8 := by omega
  rw [BitVec.getLsbD_append, BitVec.getLsbD_append, BitVec.getLsbD_append]
  rcases place with ⟨byte, bit⟩ | ⟨byte, bit⟩ | ⟨byte, bit⟩ | ⟨byte, bit⟩
  · rw [byte, bit, if_pos (by omega)]
  · rw [byte, bit, if_neg (by omega), if_pos (by omega)]
  · rw [byte, bit, if_neg (by omega), if_neg (by omega), if_pos (by omega)]
  · rw [byte, bit, if_neg (by omega), if_neg (by omega), if_neg (by omega)]

theorem getLsbD_orByte (b : Byte) {i : Nat} (hi : i < 8) : (orByte b).getLsbD i = (b != 0) := by
  rw [orByte]
  split
  case isTrue zero => simp [zero]
  case isFalse nonzero =>
    have full : (0xFF : Byte).getLsbD i = true := by
      rw [(by rfl : (0xFF : Byte) = BitVec.allOnes 8), BitVec.getLsbD_allOnes, decide_eq_true hi]
    rw [full, bne_iff_ne.mpr nonzero]

/-- Bit `j` of `orc.b` tells whether its byte is zero. -/
theorem getLsbD_orc (a : Word) {j : Nat} (hj : j < 32) :
    (orByte (a.extractLsb' 24 8) ++ orByte (a.extractLsb' 16 8) ++ orByte (a.extractLsb' 8 8) ++
      orByte (a.extractLsb' 0 8)).getLsbD j = (a.extractLsb' (8 * (j / 8)) 8 != 0) := by
  rw [getLsbD_of_bytes (fun i => orByte (a.extractLsb' (8 * i) 8)) hj, getLsbD_orByte _ (Nat.mod_lt j (by decide))]

/-- Bit `j` of `rev8` is that bit of the byte as far from the other end. -/
theorem getLsbD_reversed (a : Word) {j : Nat} (hj : j < 32) :
    (a.extractLsb' 0 8 ++ a.extractLsb' 8 8 ++ a.extractLsb' 16 8 ++ a.extractLsb' 24 8).getLsbD j =
      a.getLsbD (8 * (3 - j / 8) + j % 8) := by
  rw [getLsbD_of_bytes (fun i => a.extractLsb' (8 * (3 - i)) 8) hj, BitVec.getLsbD_extractLsb',
    decide_eq_true (Nat.mod_lt j (by decide)), Bool.true_and]

/-- Settles O31: a rotation by `rs2` takes its amount modulo 32; the byte operations work on the byte of each bit. -/
theorem extensionsRotationsBytes : Obligations.ExtensionsRotationsBytes := by
  intro s rd rs1 rs2 k hm hz a n
  have amount : bitIndex (s.readReg rs2) = n := bitIndex_eq_mod _
  have small : n < 32 := Nat.mod_lt _ (by decide)
  exact ⟨.of_withB hm hz (sext32_eq_ofInt _) rfl, .of_withB hm hz (sext32_eq_ofInt _) rfl,
    .of_withB hm hz (zext32_extractLsb'_zero a 16) rfl,
    ⟨rotateL a n, .of_withB hm hz (by rw [amount]) rfl, fun _ => getLsbD_rotateL a small⟩,
    ⟨rotateR a n, .of_withB hm hz (by rw [amount]) rfl, fun _ => getLsbD_rotateR a small⟩,
    ⟨_, .of_withB hm hz rfl rfl, fun _ => getLsbD_rotateR a k.isLt⟩,
    ⟨_, .of_withB hm hz rfl rfl, fun _ => getLsbD_orc a⟩, ⟨_, .of_withB hm hz rfl rfl, fun _ => getLsbD_reversed a⟩⟩

/-! ## Single bits (R385 to R392) -/

section
variable (a : Word) (n : Nat) {j : Nat} (hj : j < 32)
include hj

theorem getLsbD_bitAt : (bitAt n).getLsbD j = decide (j = n) := by
  have power : bitAt n = BitVec.twoPow 32 n := rfl
  rw [power, BitVec.getLsbD_twoPow, Bool.eq_iff_iff, Bool.and_eq_true, decide_eq_true_iff, decide_eq_true_iff,
    decide_eq_true_iff]
  omega

theorem getLsbD_clear_bitAt : (a &&& ~~~bitAt n).getLsbD j = (a.getLsbD j && decide (j ≠ n)) := by
  rw [getLsbD_and_not a _ hj, getLsbD_bitAt n hj, decide_not]

theorem getLsbD_invert_bitAt : (a ^^^ bitAt n).getLsbD j = (a.getLsbD j ^^ decide (j = n)) := by
  rw [BitVec.getLsbD_xor, getLsbD_bitAt n hj]

theorem getLsbD_set_bitAt : (a ||| bitAt n).getLsbD j = (a.getLsbD j || decide (j = n)) := by
  rw [BitVec.getLsbD_or, getLsbD_bitAt n hj]

end

/-- A truth value as a word has it in bit 0, and no other bit. -/
theorem getLsbD_boolWord (b : Bool) (j : Nat) : (boolWord b).getLsbD j = (decide (j = 0) && b) := by
  cases b with
  | false => rw [Bool.and_false]; exact BitVec.getLsbD_zero
  | true => rw [Bool.and_true]; exact BitVec.getLsbD_one

/-- Settles O32: the immediate forms and those with the index in `rs2` are one operation on an index below 32. -/
theorem singleBits : Obligations.SingleBits := by
  intro s rd rs1 rs2 k hm hz a n bits
  have index : bitIndex (s.readReg rs2) = n := bitIndex_eq_mod _
  refine ⟨⟨_, .of_withB hm hz rfl rfl, ?_⟩, ⟨_, .of_withB hm hz rfl rfl, fun _ => getLsbD_clear_bitAt a _⟩,
    ⟨_, .of_withB hm hz rfl rfl, ?_⟩, ⟨_, .of_withB hm hz rfl rfl, fun _ => getLsbD_invert_bitAt a _⟩,
    ⟨_, .of_withB hm hz rfl rfl, ?_⟩, ⟨_, .of_withB hm hz rfl rfl, fun _ => getLsbD_set_bitAt a _⟩,
    ⟨_, .of_withB hm hz rfl rfl, ?_⟩, ⟨_, .of_withB hm hz rfl rfl, fun j _ => getLsbD_boolWord _ j⟩⟩
  all_goals rw [index]
  · exact fun _ => getLsbD_clear_bitAt a n
  · exact fun _ => getLsbD_invert_bitAt a n
  · exact fun _ => getLsbD_set_bitAt a n
  · exact fun j _ => getLsbD_boolWord _ j

end Sys2Proof.Machine

/-! SUPPORT. The interrupt controller's choice among the pending numbers, what the core accepts of it, and the trap that
an accepted interrupt takes (spec/60_exceptions.md R425 to R436, spec/61_pfic.md R478, R490, R491). -/

namespace Sys2Proof.Machine

/-! ## Entering a trap for an interrupt (R420, R430, R436) -/

/-- Bit 31 marks an interrupt, so that below 2^31 setting it is adding it. -/
theorem interruptCause_eq_add {n : Nat} (hn : n < 2 ^ 31) : interruptCause n = 0x80000000 + BitVec.ofNat 32 n := by
  have clear : (BitVec.ofNat 32 n).getLsbD 31 = false := by
    rw [BitVec.getLsbD_ofNat, Nat.testBit_lt_two_pow hn, Bool.and_false]
  have disjoint : BitVec.twoPow 32 31 &&& BitVec.ofNat 32 n = 0 := by
    rw [BitVec.twoPow_and, clear]
    rfl
  exact (BitVec.add_eq_or_of_and_eq_zero _ _ disjoint).symm

/-- Where its trap can be entered, an interrupt without a VTF channel is taken. -/
theorem State.takeInterrupt_enters {s : State} {n : Nat} {entry : Word} (hv : ∀ k, s.vtfFor n k = false)
    (h : CanTrap s n entry) : s.takeInterrupt n = .next (s.enterTrap (interruptCause n) 0 n entry) := by
  obtain ⟨hl, he⟩ := h
  rw [State.takeInterrupt, State.interruptEntry_table hv, he.tableEntry]
  exact if_neg (Nat.not_le.mpr hl)

/-- Settles O33: both kinds of trap are the one entry sequence at the address of the slot. -/
theorem trapEntrySequence : Obligations.TrapEntrySequence := by
  intro s
  refine ⟨fun e entry hc => ⟨_, State.takeException_enters hc, s.enterTrap_entered _ _ _ entry⟩,
    fun n entry hn hv hc => ⟨_, State.takeInterrupt_enters hv hc, ?_⟩⟩
  rw [← interruptCause_eq_add (by omega)]
  exact s.enterTrap_entered _ _ _ entry

/-- Settles O35: a trap that is taken has gone through the entry sequence, which ends in machine mode. -/
theorem everyTrapEntersMachineMode : Obligations.EveryTrapEntersMachineMode := by
  rintro s t (⟨e, he⟩ | ⟨n, hn⟩)
  · obtain ⟨-, a, s', -, rfl⟩ := State.takeException_cases he
    exact State.enterTrap_priv ..
  · obtain ⟨-, a, s', -, rfl⟩ := State.takeInterrupt_cases hn
    exact State.enterTrap_priv ..

/-! ## The boundary with an accepted interrupt (R425, R552) -/

/-- A sampled interrupt is the accepted one. -/
theorem State.acceptedInterrupt_of_sampled {s : State} {n : Nat} (h : s.sampledInterrupt = some n) :
    s.acceptedInterrupt = some n := by
  unfold State.sampledInterrupt at h
  split at h
  · cases h
  · exact h

/-- An accepted interrupt wakes the core and changes nothing else by that. -/
theorem State.wake_of_accepted {s : State} {n : Nat} (h : s.acceptedInterrupt = some n) :
    s.wake = { s with sleep := .awake } := by
  unfold State.wake
  split
  · rename_i awake
    rw [← awake]
  · rw [h]
    rfl

/-- Arbitration looks at priorities and the threshold, not at whether the core sleeps. -/
theorem State.bestOf_setSleep (s : State) (z : Sleep) (req : BitVec 256) : ∀ (l : List Nat) (best : Option Nat),
    ({ s with sleep := z } : State).bestOf req best l = s.bestOf req best l
  | [], _ => rfl
  | _ :: l, _ => State.bestOf_setSleep s z req l _

/-- Whether an interrupt is sampled does not depend on whether the core sleeps. -/
theorem State.sampledInterrupt_setSleep (s : State) (z : Sleep) :
    ({ s with sleep := z } : State).sampledInterrupt = s.sampledInterrupt := by
  have winner : ({ s with sleep := z } : State).programmableWinner = s.programmableWinner := by
    unfold State.programmableWinner
    rw [State.bestOf_setSleep]
    rfl
  unfold State.sampledInterrupt State.acceptedInterrupt
  rw [winner]
  rfl

/-- Settles O37: the accepted interrupt wakes the core, and the boundary samples it whether the core slept or not. -/
theorem interruptAtBoundary : Obligations.InterruptAtBoundary := by
  intro s n hd hi hh hn
  have absorbed : s.absorb = .ok () s := by unfold State.absorb; rw [hi]
  have woken := State.wake_of_accepted (State.acceptedInterrupt_of_sampled hn)
  have boundary :
      ({ s with sleep := .awake } : State).boundary = ({ s with sleep := .awake } : State).takeInterrupt n := by
    unfold State.boundary; rw [State.sampledInterrupt_setSleep, hn]
  have running : s.runningCycle = mapNext State.endStep (({ s with sleep := .awake } : State).takeInterrupt n) := by
    rw [State.runningCycle, hh, woken, boundary]
    rfl
  rw [step, State.cycle, absorbed, State.run]
  simp only [hd, running]

/-! ## Arbitration (R426, R478, R490) -/

/-- No fixed slot is a programmable number (R471, R474). -/
theorem fixedSlots_and_programmable (m : Model) (c : Config) : fixedSlots m &&& programmable c = 0#256 := by
  have internal : fixedSlots m &&& 0x5000 = 0#256 := by cases m <;> decide
  have external : fixedSlots m &&& externalNumbers = 0#256 := by cases m <;> decide
  rw [programmable, BitVec.and_comm c.irqWired, BitVec.and_or_distrib_left, ← BitVec.and_assoc, internal, external,
    BitVec.zero_and, BitVec.or_zero]

/-- A number is asked for when it is pending, enabled by its own bit, and programmable. -/
theorem State.requested_eq (s : State) : s.requested = s.pending &&& s.pfic.en &&& programmable s.cfg := by
  have enabled : s.enabled &&& programmable s.cfg = s.pfic.en &&& programmable s.cfg := by
    rw [State.enabled, BitVec.and_or_distrib_right, BitVec.and_assoc, BitVec.and_self, fixedSlots_and_programmable,
      BitVec.or_zero]
  rw [State.requested, BitVec.and_assoc, enabled, ← BitVec.and_assoc]

theorem State.passesThreshold_iff {s : State} {n : Nat} : s.passesThreshold n = true ↔
    s.pfic.ithresdr = 0 ∨ (s.prioOf n).toNat < s.pfic.ithresdr.toNat := by
  rw [State.passesThreshold, Bool.or_eq_true, beq_iff_eq, decide_eq_true_eq]

/-- A number that arbitration over `req` considers: it is asked for and passes the threshold. -/
def State.Offered (s : State) (req : BitVec 256) (n : Nat) : Prop := req.getLsbD n = true ∧ s.passesThreshold n = true

theorem State.offered_requested_iff {s : State} {n : Nat} : s.Offered s.requested n ↔
    n < 256 ∧ s.pending.getLsbD n = true ∧ s.pfic.en.getLsbD n = true ∧ (programmable s.cfg).getLsbD n = true ∧
      (s.pfic.ithresdr = 0 ∨ (s.prioOf n).toNat < s.pfic.ithresdr.toNat) := by
  rw [State.Offered, s.requested_eq, s.passesThreshold_iff, BitVec.getLsbD_and, BitVec.getLsbD_and, Bool.and_eq_true,
    Bool.and_eq_true]
  constructor
  · rintro ⟨⟨⟨hp, he⟩, hn⟩, ht⟩
    exact ⟨BitVec.lt_of_getLsbD hp, hp, he, hn, ht⟩
  · rintro ⟨-, hp, he, hn, ht⟩
    exact ⟨⟨⟨hp, he⟩, hn⟩, ht⟩

/-- The order of R490: the smaller priority byte first, and of equal ones the smaller number. -/
def State.Outranks (s : State) (n m : Nat) : Prop :=
  (s.prioOf n).toNat < (s.prioOf m).toNat ∨ (s.prioOf n = s.prioOf m ∧ n ≤ m)

theorem State.Outranks.refl (s : State) (n : Nat) : s.Outranks n n := .inr ⟨rfl, le_rfl⟩

theorem State.Outranks.trans {s : State} {a b c : Nat} (hab : s.Outranks a b) (hbc : s.Outranks b c) :
    s.Outranks a c := by
  unfold State.Outranks at *
  rw [← BitVec.toNat_inj] at *
  omega

/-- The better of a candidate and a number above it is one of the two, and outranks both. -/
theorem State.better_outranks (s : State) {best : Option Nat} {k : Nat} (hk : ∀ m ∈ best, m < k) :
    ∃ b, s.better best k = some b ∧ (b ∈ best ∨ b = k) ∧ s.Outranks b k ∧ ∀ m ∈ best, s.Outranks b m := by
  cases best with
  | none => exact ⟨k, rfl, .inr rfl, .refl s k, nofun⟩
  | some m =>
    have above : m < k := hk m rfl
    by_cases h : (s.prioOf k).toNat < (s.prioOf m).toNat
    · refine ⟨k, if_pos h, .inr rfl, .refl s k, ?_⟩
      rintro _ ⟨⟩
      exact .inl h
    · refine ⟨m, if_neg h, .inl rfl, ?_, ?_⟩
      · unfold State.Outranks
        rw [← BitVec.toNat_inj]
        omega
      · rintro _ ⟨⟩
        exact .refl s m

/-- Among rising numbers above the best so far, arbitration gives a number that outranks the best so far and every
number it considers. -/
theorem State.bestOf_outranks {s : State} {req : BitVec 256} {m : Nat} : ∀ {l : List Nat} {best : Option Nat},
    l.Pairwise (· < ·) → (∀ b ∈ best, ∀ k ∈ l, b < k) → (m ∈ best ∨ (m ∈ l ∧ s.Offered req m)) →
    ∃ n, s.bestOf req best l = some n ∧ s.Outranks n m
  | [], best, _, _, hm => by
    rcases hm with hm | ⟨hm, -⟩
    · exact ⟨m, hm, .refl s m⟩
    · cases hm
  | k :: l, best, hl, hb, hm => by
    obtain ⟨hkl, hl⟩ := List.pairwise_cons.mp hl
    have below : ∀ b ∈ best, ∀ j ∈ l, b < j := fun b h j hj => hb b h j (List.mem_cons_of_mem k hj)
    rw [State.bestOf]
    by_cases hk : (req.getLsbD k && s.passesThreshold k) = true
    · obtain ⟨b, hbetter, hsource, hbk, hbest⟩ := s.better_outranks fun j hj => hb j hj k List.mem_cons_self
      rw [if_pos hk, hbetter]
      have rises : ∀ c ∈ some b, ∀ j ∈ l, c < j := by
        rintro _ ⟨⟩
        rcases hsource with h | rfl
        · exact below b h
        · exact hkl
      have outranks_of_b (h : s.Outranks b m) : ∃ n, s.bestOf req (some b) l = some n ∧ s.Outranks n m := by
        obtain ⟨n, hn, hnb⟩ := State.bestOf_outranks (m := b) hl rises (.inl rfl)
        exact ⟨n, hn, hnb.trans h⟩
      rcases hm with hm | ⟨hm, ho⟩
      · exact outranks_of_b (hbest m hm)
      · rcases List.mem_cons.mp hm with rfl | hm
        · exact outranks_of_b hbk
        · exact State.bestOf_outranks hl rises (.inr ⟨hm, ho⟩)
    · rw [if_neg hk]
      refine State.bestOf_outranks hl below (hm.imp_right fun ⟨hm, ho⟩ => ⟨?_, ho⟩)
      refine (List.mem_cons.mp hm).resolve_left ?_
      rintro rfl
      exact hk (Bool.and_eq_true _ _ ▸ ho)

/-- Where a number is considered, the controller offers one that outranks it. -/
theorem State.bestOf_allNumbers_outranks {s : State} {req : BitVec 256} {m : Nat} (h : s.Offered req m) :
    ∃ n, s.bestOf req none allNumbers = some n ∧ s.Outranks n m :=
  State.bestOf_outranks List.pairwise_lt_range nofun (.inr ⟨List.mem_range.mpr (BitVec.lt_of_getLsbD h.1), h⟩)

/-- What the controller offers is a number it considers. -/
theorem State.offered_of_bestOf {s : State} {req : BitVec 256} {l : List Nat} {n : Nat}
    (h : s.bestOf req none l = some n) : s.Offered req n := by
  rcases State.bestOf_cases h with h | ⟨-, hr, ht⟩
  · cases h
  · exact ⟨hr, ht⟩

/-! ## Acceptance (R426, R427, R491) -/

theorem State.nmiReady_iff {s : State} :
    s.nmiReady = true ↔ s.pending.getLsbD 2 = true ∧ s.handlers.head? ≠ some 2 := by
  rw [State.nmiReady, Bool.and_eq_true, decide_eq_true_eq]

theorem State.interruptsOn_iff {s : State} : s.interruptsOn = true ↔
    mstatusMie s.csr.mstatus = true ∧ (s.cfg.model = .v3a ∨ s.csr.intsyscr.getLsbD 5 = false) := by
  rw [State.interruptsOn, State.gihwstknen, Bool.and_eq_true, Bool.not_eq_true', Bool.and_eq_false_iff,
    decide_eq_false_iff_not, not_not]

/-- A number is let through unless a handler runs that it does not preempt. -/
theorem State.preempts_iff {s : State} {n : Nat} : s.preempts n = true ↔ ∀ m rest, s.handlers = m :: rest →
    s.nestingEnabled = true ∧ s.level < s.maxLevel ∧ 12 ≤ m ∧ s.preempt (s.prioOf n) < s.preempt (s.prioOf m) := by
  unfold State.preempts
  split
  · rename_i none_runs
    simp [none_runs]
  · rename_i m rest running
    simp [running, fixedPriority, and_assoc]

/-- With the global enable on, the offered number is accepted where it is let through and NMI is not ready. -/
theorem State.acceptedInterrupt_offered {s : State} {n : Nat} (hon : s.interruptsOn = true) (hnmi : ¬s.nmiReady = true)
    (hb : s.bestOf s.requested none allNumbers = some n) (hp : s.preempts n = true) :
    s.acceptedInterrupt = some n := by
  have some_requested : (s.requested == 0) = false := by
    rw [beq_eq_false_iff_ne]
    intro none_requested
    have requested_n := (State.offered_of_bestOf hb).1
    rw [none_requested] at requested_n
    exact absurd requested_n (by simp)
  rw [State.acceptedInterrupt, if_neg hnmi, State.programmableWinner, if_neg (by rw [hon, some_requested]; decide)]
  simp only [hb, hp, if_true]

/-- Settles O39: the fold over the numbers keeps the best of those considered so far, and what is accepted is NMI or
what that fold gives. -/
theorem arbitrationAndAcceptance : Obligations.ArbitrationAndAcceptance := by
  refine ⟨?_, ?_⟩
  · intro s candidate
    refine ⟨fun n hn => ⟨State.offered_requested_iff.mp (State.offered_of_bestOf hn), fun m hm => ?_⟩,
      fun hn m hm => ?_⟩
    · obtain ⟨n', hn', hbest⟩ := State.bestOf_allNumbers_outranks (State.offered_requested_iff.mpr hm)
      cases hn.symm.trans hn'
      exact hbest
    · obtain ⟨n', hn', -⟩ := State.bestOf_allNumbers_outranks (State.offered_requested_iff.mpr hm)
      cases hn.symm.trans hn'
  · intro s nmi on through
    refine ⟨fun h => if_pos (State.nmiReady_iff.mpr h), fun n hn h2 => ?_, fun n hon hnmi hb hp => ?_⟩
    · rcases State.acceptedInterrupt_cases hn with ⟨rfl, -⟩ | ⟨hon, hb, -, hp⟩
      · exact absurd rfl h2
      · exact ⟨State.interruptsOn_iff.mp hon, hb, State.preempts_iff.mp hp⟩
    · exact State.acceptedInterrupt_offered (State.interruptsOn_iff.mpr hon) (hnmi ∘ State.nmiReady_iff.mp) hb
        (State.preempts_iff.mpr hp)

end Sys2Proof.Machine

/-! SUPPORT. The fields of the interrupt controller and the timer hold implemented bits only, whatever a step does
(spec/61_pfic.md R471 to R484, spec/62_systick_power_debug.md R532, R533). -/

namespace Sys2Proof.Machine

/-! ## Masks -/

/-- A value has no bit in a mask when each of its bits is outside. -/
theorem and_eq_zero_iff_bits {w : Nat} {v m : BitVec w} :
    v &&& m = 0 ↔ ∀ n, v.getLsbD n = true → m.getLsbD n = false := by
  rw [← BitVec.toNat_inj]
  constructor
  · intro h n hv
    have bit := congrArg (Nat.testBit · n) h
    simpa [BitVec.getLsbD, show v.toNat.testBit n = true from hv] using bit
  · intro h
    refine Nat.eq_of_testBit_eq fun n => ?_
    cases hv : v.getLsbD n with
    | false => simp [show v.toNat.testBit n = false from hv]
    | true => simp [show m.toNat.testBit n = false from h n hv]

/-- What is cut to a mask has nothing outside it. -/
theorem and_not_mask {w : Nat} (v m : BitVec w) : v &&& m &&& ~~~m = 0 := by
  rw [BitVec.and_assoc, BitVec.and_not_self]
  exact BitVec.and_zero

/-- Bits that are clear stay so where others are cleared. -/
theorem and_keeps_clear {w : Nat} {v m : BitVec w} (h : v &&& m = 0) (k : BitVec w) : v &&& k &&& m = 0 := by
  rw [BitVec.and_assoc, BitVec.and_comm k, ← BitVec.and_assoc, h]
  exact BitVec.zero_and

/-! ## Legal fields and the parts of the state they are in -/

section
variable {s t : State} (h : DeviceFieldsLegal s)
include h

/-- Legal fields depend on the parameters and the two devices alone. -/
theorem DeviceFieldsLegal.congr (hc : t.cfg = s.cfg) (hp : t.pfic = s.pfic) (hk : t.stk = s.stk) :
    DeviceFieldsLegal t := by
  obtain ⟨h1, h2, h3, h4, h5, h6, h7, h8, h9, h10⟩ := h
  have prio : ∀ n, t.prioOf n = s.prioOf n := fun n => by unfold State.prioOf; rw [hp]
  constructor <;> simp only [hc, hp, hk, prio] <;> assumption

/-- Other pending and active bits, all of numbers the model has. -/
theorem DeviceFieldsLegal.setBits (hc : t.cfg = s.cfg) (hk : t.stk = s.stk) {act pend : BitVec 256}
    (hp : t.pfic = { s.pfic with act := act, pend := pend }) (ha : act &&& 0xACD3 = 0) (hq : pend &&& 0xACD3 = 0) :
    DeviceFieldsLegal t := by
  obtain ⟨h1, h2, h3, h4, -, -, h7, h8, h9, h10⟩ := h
  have prio : ∀ n, t.prioOf n = s.prioOf n := fun n => by unfold State.prioOf; rw [hp]
  constructor <;> simp only [hc, hp, hk, prio] <;> assumption

/-- A store to the devices leaves implemented bits in them (R474 to R484, R532, R533). -/
theorem DeviceFieldsLegal.written (hd : DeviceWritten s t) : DeviceFieldsLegal t := by
  obtain ⟨he, hp, hctlr, hsr⟩ := hd
  have hc : t.cfg = s.cfg := by rw [he]
  constructor <;> (try rw [hc])
  case enable =>
    rw [and_eq_zero_iff_bits]
    intro n hn
    cases hs : s.pfic.en.getLsbD n with
    | true => exact and_eq_zero_iff_bits.mp h.enable n hs
    | false =>
      refine and_eq_zero_iff_bits.mp hp.en n ?_
      rw [BitVec.getLsbD_and, BitVec.getLsbD_not, hn, hs, decide_eq_true (BitVec.lt_of_getLsbD hn)]
      rfl
  case priorities =>
    intro n
    have old := h.priorities n
    unfold State.prioOf at old ⊢
    rcases hp.prio n with e | ⟨b, e⟩ <;> rw [e]
    · exact old
    · exact and_not_mask b _
  case threshold =>
    rcases hp.ithresdr with e | ⟨b, e⟩ <;> rw [e]
    · exact h.threshold
    · exact and_not_mask b _
  case control =>
    rcases hp.sctlr with e | ⟨v, e⟩ <;> rw [e]
    · exact h.control
    · exact and_mask_zero _ _ _ (by decide)
  case pendingNumbers =>
    rw [and_eq_zero_iff_bits]
    intro n hn
    rcases hp.pend n hn with hn | hn
    · exact and_eq_zero_iff_bits.mp h.pendingNumbers n hn
    · exact hn.not_reserved
  case activeNumbers =>
    rw [and_eq_zero_iff_bits]
    exact fun n hn => and_eq_zero_iff_bits.mp h.activeNumbers n (hp.act n hn)
  case vtfBase =>
    rcases hp.vtfbaddrr with e | ⟨v, e⟩ <;> rw [e]
    · exact h.vtfBase
    · exact and_mask_zero _ _ _ (by decide)
  case vtfTargets =>
    intro hm k
    rcases hp.vtfaddrr k with e | ⟨v, e⟩
    · have same : t.pfic.vtfaddrr[k] = s.pfic.vtfaddrr[k] := by simpa using e
      rw [same]
      exact h.vtfTargets hm k
    · have cut : t.pfic.vtfaddrr[k] = v &&& vtfMask s.cfg.model := by simpa using e
      rw [cut, vtfMask, if_pos hm]
      exact and_mask_zero _ _ _ (by decide)
  case timerControl =>
    rcases hctlr with e | ⟨v, e⟩ <;> rw [e]
    · exact h.timerControl
    · exact and_not_mask v _
  case timerStatus =>
    rcases hsr with e | ⟨v, e⟩ <;> rw [e]
    · exact h.timerStatus
    · rw [srAfterWrite, BitVec.and_or_distrib_right, and_mask_zero _ _ _ (by decide), and_mask_zero _ _ _ (by decide)]
      exact BitVec.or_zero

/-- A number that can run a handler becomes active and is no longer pending. -/
theorem DeviceFieldsLegal.enterTrap {slot : Nat} (hs : LegalNumber s.cfg slot) (cause tval a : Word) :
    DeviceFieldsLegal (s.enterTrap cause tval slot a) := by
  refine h.setBits (by simp) (by simp) (s.enterTrap_pfic cause tval slot a) ?_ ?_
  · rw [BitVec.and_or_distrib_right, h.activeNumbers]
    refine (BitVec.zero_or).trans (and_eq_zero_iff_bits.mpr fun n hn => ?_)
    rw [BitVec.getLsbD_twoPow, Bool.and_eq_true, decide_eq_true_eq, decide_eq_true_eq] at hn
    exact hn.2 ▸ hs.not_reserved
  · exact and_keeps_clear h.pendingNumbers _

end

/-- What the steps keep of the devices: legal fields; and the parameters. -/
def DevicesKept (c : Config) (s : State) : Prop := DeviceFieldsLegal s ∧ s.cfg = c

/-- Every kind of change a step is made of keeps the fields of the devices legal, and the parameters. -/
theorem kept_devices (c : Config) : Kept (DevicesKept c) where
  other h hc := ⟨h.1.congr hc.cfg hc.pfic hc.stk, hc.cfg.trans h.2⟩
  pc _ h := ⟨h.1.congr rfl rfl rfl, h.2⟩
  mem _ h := ⟨h.1.congr rfl rfl rfl, h.2⟩
  device hd h := ⟨h.1.written hd, by rw [hd.1]; exact h.2⟩
  timer {s u} hctlr hsr h := by
    refine ⟨{ h.1 with timerControl := ?_, timerStatus := ?_ }, h.2⟩
    · rw [hctlr]; exact h.1.timerControl
    · rcases hsr with e | e <;> rw [e]
      · exact h.1.timerStatus
      · rw [or_mask _ _ _ (by decide)]; exact h.1.timerStatus
  csr hw h := by
    have frame := State.csrWrite_frame hw
    exact ⟨h.1.congr (by rw [frame]) (by rw [frame]) (by rw [frame]), by rw [frame]; exact h.2⟩
  trap _ _ hs h := ⟨h.1.enterTrap hs _ _ _, by rw [State.enterTrap_cfg]; exact h.2⟩
  ret h := ⟨h.1.congr rfl rfl rfl, h.2⟩
  endHandler {s slot rest} _ h := by
    exact ⟨h.1.setBits (State.endHandler_cfg ..) (State.endHandler_stk ..) (State.endHandler_pfic ..)
      (and_keeps_clear h.1.activeNumbers _) h.1.pendingNumbers, by rw [State.endHandler_cfg]; exact h.2⟩
  debug h := ⟨h.1.congr rfl rfl rfl, h.2⟩
  reset {s} h := ⟨(deviceFieldsLegal_resetWith s.cfg).congr rfl rfl rfl, h.2⟩

/-- Settles O58: every kind of change a step is made of keeps the fields of the devices legal, and the parameters. -/
theorem stepKeepsDeviceFields : Obligations.StepKeepsDeviceFields :=
  fun s _ h hs => (kept_devices s.cfg).step hs ⟨h, rfl⟩

end Sys2Proof.Machine

/-! SUPPORT. Word, halfword and byte accesses to the windows of the interrupt controller and the timer
(spec/61_pfic.md R472, R473, spec/62_systick_power_debug.md R531, R534). -/

namespace Sys2Proof.Machine

/-! ## Where a device address leads (R112, R472) -/

/-- The offset in a 4 KB window. -/
theorem deviceOffset_eq (a : Word) : deviceOffset a = a.toNat % 0x1000 := by
  rw [deviceOffset, BitVec.extractLsb'_toNat, Nat.shiftRight_zero]

section
variable (s : State) {a : Word} {o : Nat} (ho : o < 0x1000)
include ho

theorem deviceOffset_pfic (ha : a.toNat = 0xE000E000 + o) : deviceOffset a = o := by
  rw [deviceOffset_eq, ha]; omega

theorem deviceOffset_stk (ha : a.toNat = 0xE000F000 + o) : deviceOffset a = o := by
  rw [deviceOffset_eq, ha]; omega

theorem State.target_pfic (ha : a.toNat = 0xE000E000 + o) : s.target a = .pfic :=
  if_pos (by omega)

theorem State.target_stk (ha : a.toNat = 0xE000F000 + o) : s.target a = .sysTick :=
  (if_neg (by omega)).trans (if_pos (by omega))

end

/-! The registers that stand alone, and the groups of eight words (R472). -/

theorem pficReg_ienr (m : Model) (x : Fin 8) : pficReg m (0x100 + 4 * x.val) = some (.ienr x.val) := by
  revert x; cases m <;> decide
theorem pficReg_irer (m : Model) (x : Fin 8) : pficReg m (0x180 + 4 * x.val) = some (.irer x.val) := by
  revert x; cases m <;> decide
theorem pficReg_ipsr (m : Model) (x : Fin 8) : pficReg m (0x200 + 4 * x.val) = some (.ipsr x.val) := by
  revert x; cases m <;> decide
theorem pficReg_iprr (m : Model) (x : Fin 8) : pficReg m (0x280 + 4 * x.val) = some (.iprr x.val) := by
  revert x; cases m <;> decide
theorem pficReg_isr (m : Model) (x : Fin 8) : pficReg m (4 * x.val) = some (.isr x.val) := by
  revert x; cases m <;> decide
theorem pficReg_ipr (m : Model) (x : Fin 8) : pficReg m (0x20 + 4 * x.val) = some (.ipr x.val) := by
  revert x; cases m <;> decide
theorem pficReg_iactr (m : Model) (x : Fin 8) : pficReg m (0x300 + 4 * x.val) = some (.iactr x.val) := by
  revert x; cases m <;> decide
theorem pficReg_vtfaddrr (m : Model) (k : Fin 4) : pficReg m (0x60 + 4 * k.val) = some (.vtfaddrr k.val) := by
  revert k; cases m <;> decide
theorem pficReg_iprior (m : Model) (n : Fin 256) : pficReg m (0x400 + n.val) = some (.iprior n.val) := by
  have hn := n.isLt
  rw [pficReg]
  iterate 20 rw [if_neg (by omega)]
  rw [if_pos (by omega), Nat.add_sub_cancel_left]

/-! ## Stores to a device (R110, R473) -/

/-- The state on which the store of a four-byte instruction acts: the pc has advanced, and a reservation of the word is
in doubt (R301). -/
def State.storing (s : State) (a : Word) : State := (s.advance 4).storedAt a

theorem State.storing_keeps (s : State) (a : Word) : KeepsOtherReservation s (s.storing a) a :=
  (s.advance 4).storedAt_keeps a

section
variable {s : State} {a : Word} (hs : StoreAllowed s a)
include hs

/-- A store instruction to a device that passes the checks is the device's store. -/
theorem StoreAllowed.storeInstr_pfic {w : Width} (hw : aligned w a = true) (ht : s.target a = .pfic) (v : Word) :
    s.storeInstr w a v 4 = s.run ((s.storing a).pficStore w a v) fun _ t => .next t := by
  have reached : (s.advance 4).target a = .pfic := ht
  simp only [State.storeInstr, State.storeData, State.checkAccess_ok hs.1 hw hs.2, Res.bind, State.writeTarget, reached,
    State.storing]

theorem StoreAllowed.storeInstr_stk {w : Width} (hw : aligned w a = true) (ht : s.target a = .sysTick) (v : Word) :
    s.storeInstr w a v 4 = s.run ((s.storing a).stkStore w a v) fun _ t => .next t := by
  have reached : (s.advance 4).target a = .sysTick := ht
  simp only [State.storeInstr, State.storeData, State.checkAccess_ok hs.1 hw hs.2, Res.bind, State.writeTarget, reached,
    State.storing]

/-- A word store to a word register of the controller writes the register. -/
theorem StoreAllowed.sw_pfic {rs1 rs2 : Reg} {imm : BitVec 12} (he : s.effAddr rs1 imm = a) {o : Nat}
    (ha : a.toNat = 0xE000E000 + o) (ho : o < 0x1000) (h4 : o % 4 = 0) {r : PficReg}
    (hr : pficReg s.cfg.model o = some r) (hn : ∀ n, r ≠ .iprior n) :
    exec (.sw rs2 rs1 imm) s = s.run ((s.storing a).pficWrite r (s.readReg rs2)) fun _ t => .next t := by
  have stored : (s.storing a).pficStore .word a (s.readReg rs2) = (s.storing a).pficWrite r (s.readReg rs2) := by
    have hr' : pficReg (s.storing a).cfg.model (deviceOffset a) = some r := by
      rw [deviceOffset_pfic ho ha]; exact hr
    unfold State.pficStore
    rw [hr']
    cases r with
    | iprior n => exact absurd rfl (hn n)
    | _ => rfl
  have instr : exec (.sw rs2 rs1 imm) s = s.storeInstr .word a (s.readReg rs2) 4 := by rw [← he]; rfl
  rw [instr, hs.storeInstr_pfic (aligned_word_iff.mpr (by omega)) (s.target_pfic ho ha), stored]

end

/-! ## What a store to the controller leaves (R446) -/

/-- An instruction that leaves new registers in the controller, and the hardware stack as the change of the enable
settles it. -/
theorem LeavesPfic.of_setPfic {i : Instr} {s : State} {a : Word} {p : Pfic} {latch : Bool}
    (h : exec i s = .next { (s.storing a).setPfic p with eventLatch := latch }) : LeavesPfic i s a p latch := by
  refine ⟨_, h, rfl, rfl, rfl, fun _ => rfl, fun _ => rfl, s.storing_keeps a, fun k => ?_, rfl⟩
  show (if ({ s with pfic := p } : State).hpeEnabled = s.hpeEnabled then s.hpe else unbalance s.hpe s.level)[k] =
    if ({ s with pfic := p } : State).hpeEnabled ≠ s.hpeEnabled ∧ k.val < s.level then _ else _
  by_cases he : ({ s with pfic := p } : State).hpeEnabled = s.hpeEnabled
  · simp only [he, if_true, ne_eq, not_true, false_and, if_false]
  · simp only [he, if_false, ne_eq, not_false_eq_true, true_and]
    exact unbalance_getElem _ _ _ k.isLt

/-- An instruction that leaves NESTCTRL and HWSTKCTRL as they were leaves the hardware stack alone. -/
theorem LeavesPfic.of_pfic {i : Instr} {s : State} {a : Word} {p : Pfic} {latch : Bool} (hc : p.cfgr = s.pfic.cfgr)
    (h : exec i s = .next { s.storing a with pfic := p, eventLatch := latch }) : LeavesPfic i s a p latch := by
  refine .of_setPfic (h.trans ?_)
  have same : ({ s.storing a with pfic := p } : State).hpeEnabled = (s.storing a).hpeEnabled :=
    State.hpeEnabled_congr rfl hc rfl
  rw [State.setPfic, State.settleHpe_same same]

/-! ## Requests and events (R475, R553) -/

/-- A request is an event with SEVONPEND where a number it names was not pending. -/
theorem State.request_latch (s : State) (m : BitVec 256) : (s.request m).eventLatch = latchAfter s m := by
  have differs : (m &&& ~~~s.pending != 0) = decide (m &&& ~~~s.pending ≠ 0) := by
    rw [bne, decide_not, Bool.beq_eq_decide_eq]
  rw [State.request_eventLatch, latchAfter, State.sevonpend, differs]

end Sys2Proof.Machine

/-! SUPPORT. Stores to the registers of the interrupt controller (spec/61_pfic.md R473 to R484), and the system reset
that one of them makes (R592). -/

namespace Sys2Proof.Machine

/-! ## Priority bytes (R477) -/

/-- The state after the low `count` bytes of `v` are written to the priorities from number `n` on: the implemented bits,
of the numbers the model has. -/
def PriosWritten (s u : State) (n count : Nat) (v : Word) : Prop :=
  u = { s with pfic := { s.pfic with prio := u.pfic.prio } } ∧
    ∀ m : Fin 256, u.pfic.prio[m] =
      if n ≤ m.val ∧ m.val < n + count ∧ (programmable s.cfg ||| fixedSlots s.cfg.model).getLsbD m.val = true then
        v.extractLsb' (8 * (m.val - n)) 8 &&& prioMask s.cfg.model
      else s.pfic.prio[m]

theorem PriosWritten.zero (s : State) (n : Nat) (v : Word) : PriosWritten s s n 0 v :=
  ⟨rfl, fun _ => (if_neg (by omega)).symm⟩

/-- One byte more. -/
theorem PriosWritten.succ {s u : State} {n count : Nat} {v : Word} (h : PriosWritten s u n count v) :
    PriosWritten s (u.setPrio (n + count) (v.extractLsb' (8 * count) 8)) n (count + 1) v := by
  obtain ⟨hu, hp⟩ := h
  have hc : u.cfg = s.cfg := by rw [hu]
  unfold State.setPrio
  rw [hc]
  split
  · rename_i writable
    refine ⟨by rw [hu], fun m => ?_⟩
    show (u.pfic.prio.setIfInBounds (n + count) _)[m.val] = _
    rw [Vector.getElem_setIfInBounds]
    split
    · rename_i at_m
      rw [if_pos ⟨by omega, by omega, at_m ▸ writable⟩, ← at_m, Nat.add_sub_cancel_left]
    · have old := hp m
      rw [Fin.getElem_fin] at old
      rw [old]
      exact if_congr (by constructor <;> rintro ⟨h1, h2, h3⟩ <;> exact ⟨h1, by omega, h3⟩) rfl rfl
  · rename_i absent
    refine ⟨hu, fun m => (hp m).trans (if_congr ?_ rfl rfl)⟩
    constructor <;> rintro ⟨h1, h2, h3⟩
    · exact ⟨h1, by omega, h3⟩
    · refine ⟨h1, ?_, h3⟩
      have other : n + count ≠ m.val := fun e => absent (e ▸ h3)
      omega

/-- A store of a width writes that many priority bytes. -/
theorem State.setPrios_written (s : State) (w : Width) (n : Nat) (v : Word) :
    PriosWritten s (s.setPrios w n v) n (widthBytes w) v := by
  have none_yet := PriosWritten.zero s n v
  cases w
  · exact none_yet.succ
  · exact none_yet.succ.succ
  · exact none_yet.succ.succ.succ.succ

section
variable {s : State} {rs1 rs2 : Reg} {imm : BitVec 12} {a : Word} (hs : StoreAllowed s a)
include hs

/-- A store of any width to the priority bytes leaves the bytes of its width. -/
theorem StoreAllowed.store_prio {i : Instr} {w : Width} (hi : exec i s = s.storeInstr w a (s.readReg rs2) 4)
    (hw : aligned w a = true) (n : Fin 256) (ha : a.toNat = 0xE000E400 + n.val) :
    ∃ p : Vector Byte 256, LeavesPfic i s a { s.pfic with prio := p } s.eventLatch ∧
      ∀ m : Fin 256, p[m] =
        if n.val ≤ m.val ∧ m.val < n.val + widthBytes w ∧
            (programmable s.cfg ||| fixedSlots s.cfg.model).getLsbD m.val = true then
          (s.readReg rs2).extractLsb' (8 * (m.val - n.val)) 8 &&& prioMask s.cfg.model
        else s.pfic.prio[m] := by
  have hn := n.isLt
  have at_offset : a.toNat = 0xE000E000 + (0x400 + n.val) := by omega
  have reg : pficReg (s.storing a).cfg.model (deviceOffset a) = some (.iprior n.val) := by
    rw [deviceOffset_pfic (by omega) at_offset]; exact pficReg_iprior _ n
  obtain ⟨hu, hp⟩ := (s.storing a).setPrios_written w n.val (s.readReg rs2)
  refine ⟨((s.storing a).setPrios w n.val (s.readReg rs2)).pfic.prio, .of_pfic rfl ?_, hp⟩
  rw [hi, hs.storeInstr_pfic hw (s.target_pfic (by omega) at_offset), State.pficStore, reg]
  exact congrArg Host.Outcome.next hu

end

/-- Settles O42: each store is the write of its register, by the group, the priority bytes and the threshold. -/
theorem pficStores : Obligations.PficStores := by
  refine ⟨?_, ?_⟩
  · intro s rs1 rs2 imm x a g i raised hs
    have hx := x.isLt
    refine ⟨fun ha => .of_pfic rfl ?_, fun ha => .of_pfic rfl ?_, fun ha => .of_pfic rfl ?_,
      fun ha h3 => .of_pfic rfl ?_, fun ha h3 => ?_⟩
    · exact hs.sw_pfic rfl (o := 0x100 + 4 * x.val) (by omega) (by omega) (by omega) (pficReg_ienr _ x) nofun
    · exact hs.sw_pfic rfl (o := 0x180 + 4 * x.val) (by omega) (by omega) (by omega) (pficReg_irer _ x) nofun
    · exact hs.sw_pfic rfl (o := 0x280 + 4 * x.val) (by omega) (by omega) (by omega) (pficReg_iprr _ x) nofun
    all_goals
      have stored := hs.sw_pfic (rs2 := rs2) rfl (o := 0x200 + 4 * x.val) (by omega) (by omega) (by omega)
        (pficReg_ipsr _ x) nofun
    · have accepted : (s.storing a).softPend g = .ok () ((s.storing a).request raised) :=
        if_neg (by rw [h3]; decide)
      rw [← s.request_latch raised]
      exact stored.trans (congrArg (fun r => State.run s r fun _ t => .next t) accepted)
    · have refused : (s.storing a).softPend g = .refuse .softwareException := if_pos h3
      exact stored.trans (congrArg (fun r => State.run s r fun _ t => .next t) refused)
  · intro s rs1 rs2 imm a v leaves hs
    refine ⟨fun n ha => ?_, fun ha => ?_⟩
    · refine ⟨hs.store_prio (w := .byte) rfl rfl n ha, fun h2 => ?_, fun h4 => ?_⟩
      · exact hs.store_prio (w := .half) rfl (aligned_half_iff.mpr (by omega)) n ha
      · exact hs.store_prio (w := .word) rfl (aligned_word_iff.mpr (by omega)) n ha
    · have threshold : LeavesPfic (.sw rs2 rs1 imm) s a
          { s.pfic with ithresdr := v.extractLsb' 0 8 &&& threshMask s.cfg.model } s.eventLatch :=
        .of_pfic rfl (hs.sw_pfic rfl (o := 0x40) (by rw [ha]) (by decide) rfl (r := .ithresdr) rfl nofun)
      cases hm : s.cfg.model <;> rw [hm] at threshold <;> exact threshold

end Sys2Proof.Machine

/-! SUPPORT. The control registers of the interrupt controller (spec/61_pfic.md R479 to R484), and the system reset by a
store (R592). -/

namespace Sys2Proof.Machine

/-! ## PFIC_CFGR (R479) -/

/-- NMI's bit is another one than the exception slot's: whether NMI was pending does not depend on that. -/
theorem nmi_newly_pending (p l : BitVec 256) : 4 &&& ~~~(p &&& ~~~8 ||| l) = 4 &&& ~~~(p ||| l) := by
  have apart : (4 : BitVec 256) &&& ~~~~~~8 = 0 := by decide
  rw [BitVec.not_or, BitVec.not_or, BitVec.not_and, ← BitVec.and_assoc, ← BitVec.and_assoc, BitVec.and_or_distrib_left,
    apart]
  exact congrArg (· &&& ~~~l) BitVec.or_zero

theorem State.unpend_zero (s : State) : s.unpend 0 = s := by
  have kept : s.pfic.pend &&& ~~~(0 : BitVec 256) = s.pfic.pend :=
    (congrArg (s.pfic.pend &&& ·) BitVec.not_zero).trans BitVec.and_allOnes
  rw [State.unpend, kept]

theorem State.unpend_unpend (s : State) (m n : BitVec 256) : (s.unpend m).unpend n = s.unpend (m ||| n) := by
  rw [State.unpend, State.unpend, State.unpend, BitVec.not_or, ← BitVec.and_assoc]

/-- No request is no event. -/
theorem latchAfter_zero (s : State) : latchAfter s 0 = s.eventLatch := by
  simp [latchAfter]

theorem State.request_eq (s : State) (m : BitVec 256) : s.request m = { s with
    pfic := { s.pfic with pend := s.pfic.pend ||| m }
    eventLatch := latchAfter s m } := by
  rw [← s.request_latch]
  rfl

theorem State.request_zero (s : State) : s.request 0 = s := by
  have kept : s.pfic.pend ||| (0 : BitVec 256) = s.pfic.pend := BitVec.or_zero
  rw [State.request_eq, latchAfter_zero, kept]

/-- KEY2 without EXCSET, and with one of the two NMI bits at most: clears, then NMI's request. -/
theorem State.cfgrKey2_eq (s : State) {v : Word} (h4 : v.getLsbD 4 = false)
    (hn : (v.getLsbD 2 && v.getLsbD 3) = false) : s.cfgrKey2 v = .ok ()
      ((s.unpend ((if v.getLsbD 5 then 8 else 0) ||| (if v.getLsbD 3 then 4 else 0))).request
        (if v.getLsbD 2 then 4 else 0)) := by
  have one : ¬v.getLsbD 2 = true ∨ ¬v.getLsbD 3 = true := by
    rwa [Bool.not_eq_true, Bool.not_eq_true, ← Bool.and_eq_false_iff]
  have clear (b : Bool) (u : State) (m : BitVec 256) :
      (if b then u.unpend m else u) = u.unpend (if b then m else 0) := by
    cases b
    · exact u.unpend_zero.symm
    · rfl
  have set (b : Bool) (u : State) : (if b then u.request 4 else u) = u.request (if b then 4 else 0) := by
    cases b
    · exact u.request_zero.symm
    · rfl
  have alone : (v.getLsbD 3 && !(v.getLsbD 2 && s.free.getLsbD 0)) = v.getLsbD 3 ∧
      (v.getLsbD 2 && !(v.getLsbD 3 && !s.free.getLsbD 0)) = v.getLsbD 2 := by
    rcases one with h | h <;> simp only [Bool.not_eq_true] at h <;> simp only [h] <;> simp
  unfold State.cfgrKey2
  simp only [h4, hn, alone, clear, set, Bool.false_eq_true, if_false]
  rw [State.unpend_unpend]

/-- With NMI's two bits apart, an NMI that software makes pending is an event as it would be without the clears. -/
theorem latchAfter_unpend (s : State) {b2 b3 b5 : Bool} (h : (b2 && b3) = false) :
    latchAfter (s.unpend ((if b5 then 8 else 0) ||| (if b3 then 4 else 0))) (if b2 then 4 else 0) =
      latchAfter s (if b2 then 4 else 0) := by
  cases b2 with
  | false => exact (latchAfter_zero _).trans (latchAfter_zero s).symm
  | true =>
    obtain rfl : b3 = false := h
    cases b5 with
    | false => exact congrArg (latchAfter · 4) s.unpend_zero
    | true =>
      have same := nmi_newly_pending s.pfic.pend (levelRequests s.cfg.model s.stk)
      exact congrArg (fun m => s.eventLatch || (s.pfic.sctlr.getLsbD 4 && decide (m ≠ 0))) same

/-! What a word written to PFIC_CFGR does, by its key and PFICRESET (log entry 44). -/

section
variable (s : State) {v : Word}

theorem State.writeCfgr_key1 (hk : cfgrKey v = 0xFA05) (h6 : v.getLsbD 6 = false) :
    s.writeCfgr v = .ok () (s.cfgrKey1 v) := by
  rw [State.writeCfgr, if_pos hk, h6]
  rfl

theorem State.writeCfgr_key2 (hk : cfgrKey v = 0xBCAF) (h6 : v.getLsbD 6 = false) :
    s.writeCfgr v = s.cfgrKey2 v := by
  rw [State.writeCfgr, if_neg (by rw [hk]; decide), if_pos hk, h6]
  rfl

theorem State.writeCfgr_reset (h6 : v.getLsbD 6 = true)
    (hk : cfgrKey v = 0xFA05 ∨ cfgrKey v = 0xBCAF ∨ (cfgrKey v = 0xBEEF ∧ v.getLsbD 7 = false)) :
    s.writeCfgr v = .ok () s.pficReset := by
  unfold State.writeCfgr
  rcases hk with hk | hk | ⟨hk, h7⟩
  · rw [if_pos hk, h6]
    rfl
  · rw [if_neg (by rw [hk]; decide), if_pos hk, h6]
    rfl
  · rw [if_neg (by rw [hk]; decide), if_neg (by rw [hk]; decide), if_pos hk, h6, h7]
    rfl

theorem State.writeCfgr_nothing
    (hk : cfgrKey v ∉ [0xFA05, 0xBCAF, 0xBEEF] ∨
      (cfgrKey v = 0xBEEF ∧ v.getLsbD 7 = false ∧ v.getLsbD 6 = false)) :
    s.writeCfgr v = .ok () s := by
  unfold State.writeCfgr
  rcases hk with hk | ⟨hk, h7, h6⟩
  · simp only [List.mem_cons, List.not_mem_nil, or_false, not_or] at hk
    obtain ⟨h1, h2, h3⟩ := hk
    rw [if_neg h1, if_neg h2, if_neg h3]
  · rw [if_neg (by rw [hk]; decide), if_neg (by rw [hk]; decide), if_pos hk, h6, h7]
    rfl

end

/-! ## The other control registers -/

/-- The register at the offset of a read-only one ignores what is written (R473). -/
theorem pficReg_readOnly (m : Model) (x : Fin 8) : ∀ o ∈ [4 * x.val, 0x20 + 4 * x.val, 0x300 + 4 * x.val, 0x4C],
    ∃ r, pficReg m o = some r ∧ (∀ n, r ≠ .iprior n) ∧ ∀ (s : State) (v : Word), s.pficWrite r v = .ok () s := by
  simp only [List.forall_mem_cons, List.not_mem_nil, false_imp_iff, implies_true, and_true]
  exact ⟨⟨_, pficReg_isr m x, nofun, fun _ _ => rfl⟩, ⟨_, pficReg_ipr m x, nofun, fun _ _ => rfl⟩,
    ⟨_, pficReg_iactr m x, nofun, fun _ _ => rfl⟩, ⟨_, rfl, nofun, fun _ _ => rfl⟩⟩

/-- Settles O44: each store is the write of its register. -/
theorem pficControlWrites : Obligations.PficControlWrites := by
  intro s rs1 rs2 imm a v key leaves nmi hs
  refine ⟨fun ha hm => ?_, fun ha hr => ?_, fun ha hm => ?_, fun ha hm => ?_, fun k ha => ?_, fun x ha => ?_⟩
  · have reg : pficReg s.cfg.model 0x48 = some .cfgr := by rw [hm]; rfl
    have stored : exec (.sw rs2 rs1 imm) s = s.run ((s.storing a).writeCfgr v) fun _ t => .next t :=
      hs.sw_pfic rfl (by rw [ha]; rfl) (by decide) rfl reg nofun
    refine ⟨fun hk h6 => .of_setPfic ?_, fun hk h6 h4 hn => .of_pfic rfl ?_, fun h6 hk => .of_setPfic ?_,
      fun hk => .of_pfic rfl ?_⟩
    · rw [stored, State.writeCfgr_key1 _ hk h6]
      rfl
    · rw [stored, State.writeCfgr_key2 _ hk h6, State.cfgrKey2_eq _ h4 hn, State.request_eq, latchAfter_unpend _ hn]
      rfl
    · rw [stored, State.writeCfgr_reset _ h6 hk]
      rfl
    · rw [stored, State.writeCfgr_nothing _ hk]
      rfl
  · have kept : (s.storing a).writeSctlr v = { s.storing a with
        pfic := { s.pfic with sctlr := v &&& 0x1E }
        eventLatch := s.eventLatch || v.getLsbD 5 } :=
      if_neg fun h => hr.elim h.1 (by simp [h.2])
    refine .of_pfic rfl ?_
    rw [hs.sw_pfic rfl (o := 0xD10) (by rw [ha]; rfl) (by decide) rfl (r := .sctlr) rfl nofun]
    exact congrArg Host.Outcome.next kept
  · have reg : pficReg s.cfg.model 0x44 = some .vtfbaddrr := by rw [hm]; rfl
    exact .of_pfic rfl (hs.sw_pfic rfl (by rw [ha]; rfl) (by decide) rfl reg nofun)
  · have reg : pficReg s.cfg.model 0x50 = some .vtfidr := if_neg hm
    exact .of_pfic rfl (hs.sw_pfic rfl (by rw [ha]; rfl) (by decide) rfl reg nofun)
  · have hk := k.isLt
    refine .of_pfic rfl ?_
    rw [hs.sw_pfic rfl (o := 0x60 + 4 * k.val) (by omega) (by omega) (by omega) (pficReg_vtfaddrr _ k) nofun,
      State.pficWrite, setIfInBounds_eq_set _ hk]
    rfl
  · have hx := x.isLt
    obtain ⟨o, ho, hao⟩ : ∃ o ∈ [4 * x.val, 0x20 + 4 * x.val, 0x300 + 4 * x.val, 0x4C], a.toNat = 0xE000E000 + o := by
      simp only [List.mem_cons, List.not_mem_nil, or_false, exists_eq_or_imp, exists_eq_left] at ha ⊢
      omega
    obtain ⟨r, hr, hn, hw⟩ := pficReg_readOnly s.cfg.model x o ho
    simp only [List.mem_cons, List.not_mem_nil, or_false] at ho
    refine .of_pfic rfl ?_
    rw [hs.sw_pfic rfl hao (by omega) (by omega) hr hn, hw]
    rfl

/-- Settles O53: the store is the system reset, which keeps memory. -/
theorem systemResetByStore : Obligations.SystemResetByStore := by
  intro s rs1 rs2 imm a hs
  refine ⟨fun ha hm hv => ?_, fun ha hm hv => ?_⟩
  · have stored := hs.sw_pfic (rs2 := rs2) rfl (o := 0xD10) (by rw [ha]; rfl) (by decide) rfl (r := .sctlr) rfl nofun
    have reset : (s.storing a).writeSctlr (s.readReg rs2) = (s.storing a).systemReset := if_pos ⟨hm, hv⟩
    exact ⟨_, stored.trans (congrArg Host.Outcome.next reset), fun _ => rfl, rfl⟩
  · have reg : pficReg s.cfg.model 0x48 = some .cfgr := by rw [hm]; rfl
    have stored := hs.sw_pfic (rs2 := rs2) rfl (by rw [ha]; rfl) (by decide) rfl reg nofun
    rw [hv] at stored
    exact ⟨_, stored, fun _ => rfl, rfl⟩

end Sys2Proof.Machine

/-! SUPPORT. Loads from the interrupt controller (spec/61_pfic.md R472 to R484). -/

namespace Sys2Proof.Machine

/-! ## The numbers, bit by bit (R470, R471, R474) -/

theorem getLsbD_externalNumbers (n : Nat) : externalNumbers.getLsbD n = decide (16 ≤ n ∧ n < 256) := by
  rw [externalNumbers, BitVec.getLsbD_shiftLeft, BitVec.getLsbD_allOnes, Bool.eq_iff_iff]
  simp only [Bool.and_eq_true, Bool.not_eq_true', decide_eq_true_eq, decide_eq_false_iff_not]
  omega

theorem getLsbD_programmable (c : Config) (n : Nat) :
    (programmable c).getLsbD n = (decide (n = 12 ∨ n = 14) || (decide (16 ≤ n) && c.irqWired.getLsbD n)) := by
  have internal : (0x5000 : BitVec 256) = BitVec.twoPow 256 12 ||| BitVec.twoPow 256 14 := by decide
  rw [programmable, internal, BitVec.getLsbD_or, BitVec.getLsbD_or, BitVec.getLsbD_and, getLsbD_externalNumbers,
    BitVec.getLsbD_twoPow, BitVec.getLsbD_twoPow, Bool.eq_iff_iff]
  cases hw : c.irqWired.getLsbD n with
  | false =>
    simp only [Bool.or_eq_true, Bool.and_eq_true, decide_eq_true_eq, Bool.false_eq_true, false_and, and_false, or_false]
    omega
  | true =>
    have bound := BitVec.lt_of_getLsbD hw
    simp only [Bool.or_eq_true, Bool.and_eq_true, decide_eq_true_eq, true_and, and_true]
    omega

theorem getLsbD_fixedSlots (m : Model) (n : Nat) : (fixedSlots m).getLsbD n =
    (decide (n ∈ [2, 3]) || (decide (m ≠ .v3a) && decide (n ∈ [5, 8, 9]))) := by
  have common : (0xC : BitVec 256) = BitVec.twoPow 256 2 ||| BitVec.twoPow 256 3 := by decide
  have later : (0x32C : BitVec 256) =
      0xC ||| BitVec.twoPow 256 5 ||| BitVec.twoPow 256 8 ||| BitVec.twoPow 256 9 := by decide
  rw [Bool.eq_iff_iff, fixedSlots]
  split
  · rename_i hm
    rw [common]
    simp only [hm, BitVec.getLsbD_or, BitVec.getLsbD_twoPow, Bool.or_eq_true, Bool.and_eq_true, decide_eq_true_eq,
      List.mem_cons, List.not_mem_nil, ne_eq, not_true, false_and, or_false]
    omega
  · rename_i hm
    rw [later, common]
    simp only [hm, BitVec.getLsbD_or, BitVec.getLsbD_twoPow, Bool.or_eq_true, Bool.and_eq_true, decide_eq_true_eq,
      List.mem_cons, List.not_mem_nil, ne_eq, not_false_eq_true, true_and, or_false]
    omega

/-- An internal number, or an external one with a source. -/
theorem getLsbD_unwired {c : Config} {n : Nat} (h : n < 16 ∨ c.irqWired.getLsbD n = true) :
    (unwired c).getLsbD n = false := by
  rw [unwired, BitVec.getLsbD_and, BitVec.getLsbD_not, getLsbD_externalNumbers]
  rcases h with h | h
  · rw [decide_eq_false (by omega), Bool.false_and]
  · rw [h, Bool.not_true, Bool.and_false, Bool.and_false]

/-- The enable bits: the fixed slots' are always set (R474). -/
theorem State.getLsbD_enabled {s : State} {n : Nat} (h : n < 16 ∨ s.cfg.irqWired.getLsbD n = true) :
    s.enabled.getLsbD n = if n = 12 ∨ n = 14 ∨ 16 ≤ n then s.pfic.en.getLsbD n
      else decide (n ∈ [2, 3]) || (decide (s.cfg.model ≠ .v3a) && decide (n ∈ [5, 8, 9])) := by
  rw [State.enabled, BitVec.getLsbD_or, BitVec.getLsbD_and, getLsbD_programmable, getLsbD_fixedSlots]
  split
  · rename_i prog
    have own : (decide (n = 12 ∨ n = 14) || (decide (16 ≤ n) && s.cfg.irqWired.getLsbD n)) = true := by
      simp only [Bool.or_eq_true, Bool.and_eq_true, decide_eq_true_eq]
      rcases h with h | h
      · omega
      · rw [h]; simp only [and_true]; omega
    have not_fixed : n ∉ [2, 3] ∧ n ∉ [5, 8, 9] := by
      simp only [List.mem_cons, List.not_mem_nil, or_false, not_or]; omega
    rw [own, decide_eq_false not_fixed.1, decide_eq_false not_fixed.2]
    simp only [Bool.and_true, Bool.and_false, Bool.or_false]
  · rename_i other
    rw [decide_eq_false (by omega : ¬(n = 12 ∨ n = 14)), decide_eq_false (by omega : ¬16 ≤ n)]
    simp only [Bool.false_and, Bool.or_false, Bool.and_false, Bool.false_or]

/-- The timer's requests that stay asserted (R486, R540). -/
theorem getLsbD_levelRequests (m : Model) (t : SysTick) (n : Nat) : (levelRequests m t).getLsbD n =
    (decide (m ≠ .v3a) && ((decide (n = 12) && t.sr.getLsbD 0 && t.ctlr.getLsbD 1) ||
      (decide (n = 14) && t.sr.getLsbD 31))) := by
  have twelve : (0x1000 : BitVec 256) = BitVec.twoPow 256 12 := by decide
  have fourteen : (0x4000 : BitVec 256) = BitVec.twoPow 256 14 := by decide
  have bit (b : Bool) (k : Nat) (hk : k < 256) :
      (if b then BitVec.twoPow 256 k else 0).getLsbD n = (decide (n = k) && b) := by
    cases b
    · simp
    · rw [if_pos rfl, BitVec.getLsbD_twoPow, decide_eq_true hk, Bool.true_and, Bool.and_true]
      exact decide_eq_decide.mpr eq_comm
  unfold levelRequests
  split
  · rename_i hm
    rw [hm, decide_eq_false (by simp), Bool.false_and]
    exact BitVec.getLsbD_zero
  · rename_i hm
    rw [twelve, fourteen, BitVec.getLsbD_or, bit _ _ (by omega), bit _ _ (by omega), decide_eq_true hm, Bool.true_and,
      Bool.and_assoc]

/-- The pending bits: latched, or still requested (R475). -/
theorem State.getLsbD_pending (s : State) (n : Nat) : s.pending.getLsbD n = (s.pfic.pend.getLsbD n ||
    (decide (s.cfg.model ≠ .v3a) && ((decide (n = 12) && s.stk.sr.getLsbD 0 && s.stk.ctlr.getLsbD 1) ||
      (decide (n = 14) && s.stk.sr.getLsbD 31)))) := by
  rw [State.pending, BitVec.getLsbD_or, getLsbD_levelRequests]

/-! ## Values with free bits (D23) -/

/-- A value with free bits leaves every other bit as it is. -/
theorem State.withFree_fixed (s : State) (v mask : Word) : ∃ x u, s.withFree v mask = .ok x u ∧ SameOrDrawn s u ∧
    ∀ j, j < 32 → mask.getLsbD j = false → x.getLsbD j = v.getLsbD j := by
  unfold State.withFree
  split
  · exact ⟨v, s, rfl, .refl s, fun _ _ _ => rfl⟩
  · refine ⟨_, _, rfl, .inr rfl, fun j hj hm => ?_⟩
    rw [BitVec.getLsbD_or, getLsbD_and_not _ _ hj, BitVec.getLsbD_and, hm]
    simp

/-- A value without free bits. -/
theorem State.withFree_zero (s : State) {v mask : Word} (h : mask = 0) : s.withFree v mask = .ok v s := if_pos h

theorem getLsbD_groupWord (v : BitVec 256) (x : Nat) {j : Nat} (hj : j < 32) :
    (groupWord v x).getLsbD j = v.getLsbD (32 * x + j) := by
  rw [groupWord, BitVec.getLsbD_extractLsb', decide_eq_true hj, Bool.true_and]

/-- An instruction that retires a value, some of whose bits may be free. -/
theorem ReadsPartly.of_retire {i : Instr} {s u : State} {rd : Reg} {v : Word} {fixed : Word → Prop}
    (hu : SameOrDrawn s u) (h : exec i s = u.retire rd v 4) (hf : fixed v) : ReadsPartly i s rd fixed := by
  rw [hu.eq] at h
  refine ⟨_, v, h, fun r => State.readReg_writeReg _ rd r v, hf, ?_, fun _ => ?_, ?_⟩
  · simp
  · simp
  · rw [State.writeReg_eq]; rfl

/-- The low part of a word that an access of a width moves. -/
theorem getLsbD_widthMask (w : Width) {i : Nat} (hi : i < 32) :
    (widthMask w).getLsbD i = decide (i < 8 * widthBytes w) := by
  have ones : widthMask w = (BitVec.allOnes (8 * widthBytes w)).setWidth 32 := by cases w <;> decide
  rw [ones, BitVec.getLsbD_setWidth, BitVec.getLsbD_allOnes, decide_eq_true hi, Bool.true_and]

/-- The low byte of four. -/
theorem low_byte (b3 b2 b1 b0 : Byte) : (b3 ++ b2 ++ b1 ++ b0 : Word) &&& widthMask .byte = b0.zeroExtend 32 := by
  refine BitVec.eq_of_getLsbD_eq fun i hi => ?_
  rw [BitVec.getLsbD_and, getLsbD_widthMask _ hi, BitVec.getLsbD_append, BitVec.zeroExtend_eq_setWidth,
    BitVec.getLsbD_setWidth, decide_eq_true hi, Bool.true_and]
  by_cases low : i < 8
  · rw [if_pos low, decide_eq_true (p := i < 8 * widthBytes .byte) low, Bool.and_true]
  · rw [decide_eq_false (p := i < 8 * widthBytes .byte) low, Bool.and_false, BitVec.getLsbD_of_ge _ _ (by omega)]

/-! ## Loads (R110, R473) -/

section
variable {s : State} {a : Word} (hs : LoadAllowed s a)
include hs

/-- A load instruction from a device that passes the checks is the device's load. -/
theorem LoadAllowed.loadInstr_pfic {w : Width} (hw : aligned w a = true) (ht : s.target a = .pfic) (ext : Word → Word)
    (rd : Reg) : s.loadInstr w ext rd a 4 = s.run (s.pficLoad w a) fun v t => t.retire rd (ext v) 4 := by
  simp only [State.loadInstr, State.loadData, State.checkAccess_ok hs.1 hw hs.2, Res.bind, State.readTarget, ht]

theorem LoadAllowed.loadInstr_stk {w : Width} (hw : aligned w a = true) (ht : s.target a = .sysTick)
    (ext : Word → Word) (rd : Reg) :
    s.loadInstr w ext rd a 4 = s.run (s.stkLoad w a) fun v t => t.retire rd (ext v) 4 := by
  simp only [State.loadInstr, State.loadData, State.checkAccess_ok hs.1 hw hs.2, Res.bind, State.readTarget, ht]

section
variable {rd rs1 : Reg} {imm : BitVec 12} (he : s.effAddr rs1 imm = a) {o : Nat} (ha : a.toNat = 0xE000E000 + o)
  (ho : o < 0x1000) (h4 : o % 4 = 0)
include he ha ho h4

/-- A word load from the controller. -/
theorem LoadAllowed.lw_pfic_load :
    exec (.lw rd rs1 imm) s = s.run (s.pficLoad .word a) fun v t => t.retire rd v 4 := by
  have instr : exec (.lw rd rs1 imm) s = s.loadInstr .word id rd a 4 := by rw [← he]; rfl
  rw [instr, hs.loadInstr_pfic (aligned_word_iff.mpr (by omega)) (s.target_pfic ho ha)]
  rfl

/-- A word load from an address without a register faults (R116). -/
theorem LoadAllowed.lw_absent (hr : pficReg s.cfg.model o = none) :
    exec (.lw rd rs1 imm) s = s.accessError (.loadAccess a) := by
  have absent : s.pficLoad .word a = .fault (.loadAccess a) := by
    rw [State.pficLoad, deviceOffset_pfic ho ha, hr]
  rw [hs.lw_pfic_load he ha ho h4, absent]
  rfl

variable {r : PficReg} (hr : pficReg s.cfg.model o = some r) (hn : ∀ n, r ≠ .iprior n)
include hr hn

/-- A word load from a word register reads the register. -/
theorem LoadAllowed.lw_pfic :
    exec (.lw rd rs1 imm) s = s.run (s.pficValue r) fun v t => t.retire rd v 4 := by
  have value : s.pficLoad .word a = s.pficValue r := by
    unfold State.pficLoad
    rw [deviceOffset_pfic ho ha, hr]
    cases r with
    | iprior n => exact absurd rfl (hn n)
    | _ => rfl
  rw [hs.lw_pfic_load he ha ho h4, value]

theorem LoadAllowed.lw_holds {v : Word} (hv : s.pficValue r = .ok v s) :
    Completes (.lw rd rs1 imm) s rd v (s.pc + 4) := by
  refine .of_retire ?_
  rw [hs.lw_pfic he ha ho h4 hr hn, hv]
  rfl

/-- A word load from a group register reads the bits of the numbers that have a source (R470, D23). -/
theorem LoadAllowed.lw_group {v : BitVec 256} {x : Nat} {f : Nat → Bool}
    (hv : s.pficValue r = s.withFree (groupWord v x) (groupWord (unwired s.cfg) x))
    (hf : ∀ n, n < 16 ∨ s.cfg.irqWired.getLsbD n = true → v.getLsbD n = f n) :
    ReadsPartly (.lw rd rs1 imm) s rd fun w => ∀ j, j < 32 →
      (32 * x + j < 16 ∨ s.cfg.irqWired.getLsbD (32 * x + j) = true) → w.getLsbD j = f (32 * x + j) := by
  obtain ⟨w, u, hw, hu, fixed⟩ := s.withFree_fixed (groupWord v x) (groupWord (unwired s.cfg) x)
  refine .of_retire hu (v := w) ?_ fun j hj hsource => ?_
  · rw [hs.lw_pfic he ha ho h4 hr hn, hv, hw]
    rfl
  · rw [fixed j hj ((getLsbD_groupWord _ _ hj).trans (getLsbD_unwired hsource)), getLsbD_groupWord _ _ hj,
      hf _ hsource]

end

/-- A byte load from the priority byte of a number that is not an external number without a source (R477). -/
theorem LoadAllowed.lbu_prio {rd rs1 : Reg} {imm : BitVec 12} (he : s.effAddr rs1 imm = a) (n : Fin 256)
    (ha : a.toNat = 0xE000E400 + n.val) (hsource : n.val < 16 ∨ s.cfg.irqWired.getLsbD n.val = true) :
    Completes (.lbu rd rs1 imm) s rd (s.pfic.prio[n].zeroExtend 32) (s.pc + 4) := by
  have hn := n.isLt
  have at_offset : a.toNat = 0xE000E000 + (0x400 + n.val) := by omega
  have wired : s.prioWordUnwired n.val &&& widthMask .byte = 0 := by
    have none_free : s.prioUnwired n.val = 0 := if_neg (by rw [getLsbD_unwired hsource]; decide)
    rw [State.prioWordUnwired, low_byte, none_free]
    rfl
  have byte : s.prioWord n.val &&& widthMask .byte = s.pfic.prio[n].zeroExtend 32 := by
    have held : s.prioOf n.val = s.pfic.prio[n] := by
      rw [State.prioOf, Vector.getElem?_eq_getElem hn]
      rfl
    rw [State.prioWord, low_byte, held]
  have value : s.pficLoad .byte a = .ok (s.pfic.prio[n].zeroExtend 32) s := by
    rw [State.pficLoad, deviceOffset_pfic (by omega) at_offset, pficReg_iprior]
    exact (s.withFree_zero wired).trans (by rw [byte])
  have instr : exec (.lbu rd rs1 imm) s = s.loadInstr .byte id rd a 4 := by rw [← he]; rfl
  refine .of_retire ?_
  rw [instr, hs.loadInstr_pfic rfl (s.target_pfic (by omega) at_offset), value]
  rfl

end

/-! ## PFIC_GISR (R480) -/

/-- PFIC_GISR without its nesting code: LOCKSTA, DBGMODE, GLOBLIE, GPENDSTA, GACTSTA. -/
def gisrFlags (locked debug mie pend act : Bool) : Word :=
  (if locked then 0x2000 else 0) ||| (if debug then 0x1000 else 0) ||| (if mie then 0x800 else 0) |||
    (if pend then 0x200 else 0) ||| (if act then 0x100 else 0)

/-- Each flag is its own bit, and no other bit is set. -/
theorem gisrFlags_bits : ∀ locked debug mie pend act : Bool,
    let v := gisrFlags locked debug mie pend act
    v &&& 0xFFFFC400 = 0 ∧ v.extractLsb' 0 8 = 0 ∧ v.getLsbD 8 = act ∧ v.getLsbD 9 = pend ∧ v.getLsbD 11 = mie ∧
      v.getLsbD 12 = debug ∧ v.getLsbD 13 = locked := by
  decide

/-- The state bits of the model, what is pending, what is active. -/
theorem State.gisrBits_eq (s : State) : s.gisrBits =
    gisrFlags (decide (s.cfg.model ≠ .v3a) && s.locked) (decide (s.cfg.model ≠ .v3a) && decide (s.dbg ≠ .running))
      (decide (s.cfg.model ≠ .v3a) && mstatusMie s.csr.mstatus) (decide (s.pending ≠ 0)) (decide (s.pfic.act ≠ 0)) := by
  unfold State.gisrBits gisrFlags
  by_cases hm : s.cfg.model = .v3a <;> simp [hm]

/-- The nesting code up to level 2. -/
def gisrCode (level : Nat) : Byte := if level = 0 then 0 else if level = 1 then 1 else 3

theorem State.nestCode_eq {s : State} (h : s.level ≤ 2) : s.nestCode = .ok ((gisrCode s.level).zeroExtend 32) s := by
  unfold State.nestCode
  interval_cases s.level <;> rfl

/-- A byte in the low bits of a word leaves the others clear. -/
theorem getLsbD_zeroExtend_high (b : Byte) {j : Nat} (hj : 8 ≤ j) : (b.zeroExtend 32).getLsbD j = false := by
  rw [BitVec.zeroExtend_eq_setWidth, BitVec.getLsbD_setWidth, BitVec.getLsbD_of_ge _ _ hj, Bool.and_false]

theorem zeroExtend_and_high (b : Byte) {m : Word} (hm : m.extractLsb' 0 8 = 0) : b.zeroExtend 32 &&& m = 0 := by
  refine and_eq_zero_iff_bits.mpr fun j hj => ?_
  have low : j < 8 := by
    by_contra high
    rw [getLsbD_zeroExtend_high b (by omega)] at hj
    cases hj
  have bit := congrArg (·.getLsbD j) hm
  simpa [low] using bit

/-- Settles O43: each load reads its register, or its address has none on the model. -/
theorem pficLoads : Obligations.PficLoads := by
  intro s rd rs1 imm a i holds group later hs
  refine ⟨fun x ha => ?_, fun x ha => ?_, fun x ha => ?_, fun x ha => ?_, fun ha => ?_, fun ha => ?_, fun k ha => ?_,
    fun ha => ?_, fun ha => ?_, fun ha => ?_, fun ha hl => ?_, fun n ha => hs.lbu_prio rfl n ha⟩
  · have hx := x.isLt
    exact hs.lw_group rfl (o := 4 * x.val) (by omega) (by omega) (by omega) (pficReg_isr _ x) nofun rfl
      fun n hn => State.getLsbD_enabled hn
  · have hx := x.isLt
    exact hs.lw_group rfl (o := 0x20 + 4 * x.val) (by omega) (by omega) (by omega) (pficReg_ipr _ x) nofun rfl
      fun n _ => s.getLsbD_pending n
  · have hx := x.isLt
    exact hs.lw_group rfl (o := 0x300 + 4 * x.val) (by omega) (by omega) (by omega) (pficReg_iactr _ x) nofun rfl
      fun n _ => rfl
  · have hx := x.isLt
    simp only [List.mem_cons, List.not_mem_nil, or_false] at ha
    rcases ha with ha | ha | ha | ha
    · exact hs.lw_holds rfl (o := 0x100 + 4 * x.val) (by omega) (by omega) (by omega) (pficReg_ienr _ x) nofun rfl
    · exact hs.lw_holds rfl (o := 0x180 + 4 * x.val) (by omega) (by omega) (by omega) (pficReg_irer _ x) nofun rfl
    · exact hs.lw_holds rfl (o := 0x200 + 4 * x.val) (by omega) (by omega) (by omega) (pficReg_ipsr _ x) nofun rfl
    · exact hs.lw_holds rfl (o := 0x280 + 4 * x.val) (by omega) (by omega) (by omega) (pficReg_iprr _ x) nofun rfl
  · exact hs.lw_holds rfl (o := 0x40) (by rw [ha]; rfl) (by decide) rfl (r := .ithresdr) rfl nofun rfl
  · exact hs.lw_holds rfl (o := 0xD10) (by rw [ha]; rfl) (by decide) rfl (r := .sctlr) rfl nofun rfl
  · have hk := k.isLt
    refine hs.lw_holds rfl (o := 0x60 + 4 * k.val) (by omega) (by omega) (by omega) (pficReg_vtfaddrr _ k) nofun ?_
    rw [State.pficValue, Vector.getElem?_eq_getElem hk]
    rfl
  · split
    · rename_i hm
      exact hs.lw_holds rfl (o := 0x44) (by rw [ha]; rfl) (by decide) rfl (r := .vtfbaddrr) (if_pos hm) nofun rfl
    · rename_i hm
      exact hs.lw_absent rfl (o := 0x44) (by rw [ha]; rfl) (by decide) rfl (if_neg hm)
  · split
    · rename_i hm
      exact hs.lw_holds rfl (o := 0x48) (by rw [ha]; rfl) (by decide) rfl (r := .cfgr) (if_pos hm) nofun rfl
    · rename_i hm
      exact hs.lw_absent rfl (o := 0x48) (by rw [ha]; rfl) (by decide) rfl (if_neg hm)
  · split
    · rename_i hm
      exact hs.lw_absent rfl (o := 0x50) (by rw [ha]; rfl) (by decide) rfl (if_pos hm)
    · rename_i hm
      exact hs.lw_holds rfl (o := 0x50) (by rw [ha]; rfl) (by decide) rfl (r := .vtfidr) (if_neg hm) nofun rfl
  · have value : s.pficValue .gisr = .ok (s.gisrBits ||| (gisrCode s.level).zeroExtend 32) s := by
      rw [State.pficValue, State.nestCode_eq hl]
    refine ⟨_, hs.lw_holds rfl (o := 0x4C) (by rw [ha]; rfl) (by decide) rfl (r := .gisr) rfl nofun value, ?_⟩
    have flag {j : Nat} (hj : 8 ≤ j) :
        (s.gisrBits ||| (gisrCode s.level).zeroExtend 32).getLsbD j = s.gisrBits.getLsbD j := by
      rw [BitVec.getLsbD_or, getLsbD_zeroExtend_high _ hj, Bool.or_false]
    rw [flag (by omega), flag (by omega), flag (by omega), flag (by omega), flag (by omega),
      BitVec.and_or_distrib_right, zeroExtend_and_high _ (by decide), BitVec.extractLsb'_or,
      extract_zeroExtend _ (by decide), s.gisrBits_eq]
    obtain ⟨reserved, low, active, pending, mie, debug, locked⟩ := gisrFlags_bits
      (decide (s.cfg.model ≠ .v3a) && s.locked) (decide (s.cfg.model ≠ .v3a) && decide (s.dbg ≠ .running))
      (decide (s.cfg.model ≠ .v3a) && mstatusMie s.csr.mstatus) (decide (s.pending ≠ 0)) (decide (s.pfic.act ≠ 0))
    rw [reserved, low]
    exact ⟨BitVec.or_zero, BitVec.zero_or, active, pending, mie, debug, locked⟩

end Sys2Proof.Machine

/-! SUPPORT. Loads and stores of the timer registers (spec/62_systick_power_debug.md R531 to R536, R540). -/

namespace Sys2Proof.Machine

/-! ## Byte lanes (R103, R534) -/

theorem laneShift_eq (a : Word) : laneShift a = 8 * (a.toNat % 4) := by
  rw [laneShift, BitVec.extractLsb'_toNat, Nat.shiftRight_zero]

/-- A load of a lane is the bits of the lane. -/
theorem lane_load (x : Word) (w : Width) (l : Nat) :
    (x >>> (8 * l)) &&& widthMask w = (x.extractLsb' (8 * l) (8 * widthBytes w)).zeroExtend 32 := by
  refine BitVec.eq_of_getLsbD_eq fun i hi => ?_
  rw [BitVec.getLsbD_and, BitVec.getLsbD_ushiftRight, getLsbD_widthMask w hi, BitVec.zeroExtend_eq_setWidth,
    BitVec.getLsbD_setWidth, BitVec.getLsbD_extractLsb', decide_eq_true hi, Bool.true_and, Bool.and_comm]

/-- A store of some lanes takes their bits from the low part of the value, and keeps the others. -/
theorem getLsbD_mergeLanes (old v : Word) (w : Width) (a : Word) {i : Nat} (hi : i < 32) :
    (mergeLanes old v w a).getLsbD i =
      if laneShift a ≤ i ∧ i < laneShift a + 8 * widthBytes w then v.getLsbD (i - laneShift a) else old.getLsbD i := by
  have inside : decide (i < laneShift a) = !decide (laneShift a ≤ i) := by
    rw [← decide_not]; exact decide_eq_decide.mpr Nat.not_le.symm
  rw [mergeLanes, BitVec.getLsbD_or, getLsbD_and_not _ _ hi, BitVec.getLsbD_shiftLeft, BitVec.getLsbD_shiftLeft,
    BitVec.getLsbD_and, getLsbD_widthMask w (by omega), inside, decide_eq_true hi]
  by_cases from_lane : laneShift a ≤ i
  · by_cases in_lane : i < laneShift a + 8 * widthBytes w
    · rw [if_pos ⟨from_lane, in_lane⟩, decide_eq_true from_lane,
        decide_eq_true (by omega : i - laneShift a < 8 * widthBytes w)]
      simp
    · rw [if_neg (fun h => in_lane h.2), decide_eq_true from_lane,
        decide_eq_false (by omega : ¬i - laneShift a < 8 * widthBytes w)]
      simp
  · rw [if_neg (fun h => from_lane h.1), decide_eq_false from_lane]
    simp

/-- A word with the lanes of a store is what the store leaves. -/
theorem eq_mergeLanes {old v x a : Word} {w : Width} {l : Nat} (ha : laneShift a = 8 * l)
    (h : ∀ j, j < 4 → x.extractLsb' (8 * j) 8 =
      if l ≤ j ∧ j < l + widthBytes w then v.extractLsb' (8 * (j - l)) 8 else old.extractLsb' (8 * j) 8) :
    x = mergeLanes old v w a := by
  refine BitVec.eq_of_getLsbD_eq fun i hi => ?_
  have lane_bit (y : Word) (j : Nat) : (y.extractLsb' (8 * j) 8).getLsbD (i % 8) = y.getLsbD (8 * j + i % 8) := by
    rw [BitVec.getLsbD_extractLsb', decide_eq_true (by omega), Bool.true_and]
  have lane := congrArg (·.getLsbD (i % 8)) (h (i / 8) (by omega))
  simp only [lane_bit, Nat.div_add_mod] at lane
  rw [lane, getLsbD_mergeLanes _ _ _ _ hi, ha, apply_ite (BitVec.getLsbD · (i % 8)), lane_bit, lane_bit,
    Nat.div_add_mod]
  by_cases in_lanes : l ≤ i / 8 ∧ i / 8 < l + widthBytes w
  · rw [if_pos in_lanes, if_pos (by omega), show 8 * (i / 8 - l) + i % 8 = i - 8 * l by omega]
  · rw [if_neg in_lanes, if_neg (by omega)]

/-! ## What a store to the timer leaves (R486, R540) -/

theorem State.setStk_self (s : State) : s.setStk s.stk = s := by
  rw [State.setStk, BitVec.and_not_self]
  exact s.request_zero

/-- An instruction that leaves new registers in the timer, and the requests that they newly assert. -/
theorem LeavesTimer.of_setStk {i : Instr} {s : State} {a : Word} {t : SysTick}
    (h : exec i s = .next ((s.storing a).setStk t)) :
    LeavesTimer i s a t (levelRequests s.cfg.model t &&& ~~~levelRequests s.cfg.model s.stk) :=
  ⟨_, h, rfl, rfl, State.request_latch _ _, rfl, fun _ => rfl, fun _ => rfl, s.storing_keeps a, rfl⟩

/-- The requests of a timer depend on its status and its enable bits. -/
theorem levelRequests_congr {t u : SysTick} (hs : t.sr = u.sr) (hc : t.ctlr = u.ctlr) (m : Model) :
    levelRequests m t = levelRequests m u := by
  rw [levelRequests, hs, hc]
  rfl

/-- A request is newly asserted where it was not before. -/
theorem newly_asserted : ∀ p q p' q' : Bool,
    ((if p then (0x1000 : BitVec 256) else 0) ||| (if q then 0x4000 else 0)) &&&
        ~~~((if p' then 0x1000 else 0) ||| (if q' then 0x4000 else 0)) =
      (if p = true ∧ p' = false then 0x1000 else 0) ||| (if q = true ∧ q' = false then 0x4000 else 0) := by
  decide

theorem levelRequests_raised (m : Model) (t u : SysTick) : levelRequests m t &&& ~~~levelRequests m u =
    (if m ≠ .v3a ∧ (t.sr.getLsbD 0 && t.ctlr.getLsbD 1) = true ∧ (u.sr.getLsbD 0 && u.ctlr.getLsbD 1) = false
      then 0x1000 else 0) ||| (if m ≠ .v3a ∧ t.sr.getLsbD 31 = true ∧ u.sr.getLsbD 31 = false then 0x4000 else 0) := by
  by_cases hm : m = .v3a
  · simp only [levelRequests, hm, if_true, ne_eq, not_true, false_and, if_false]
    decide
  · simp only [levelRequests, hm, if_false, ne_eq, not_false_eq_true, true_and]
    exact newly_asserted _ _ _ _

/-! ## Accesses -/

/-- A register of the timer at the word of its offset. -/
structure TimerRegAt (m : Model) (o : Nat) (r : StkReg) : Prop where
  word : o % 4 = 0
  below : o < 0x100
  reg : ∀ l, l < 4 → stkReg m (o + l) = some r

/-- The registers of V3A, and those of V3B and V3C (R531). -/
theorem timerRegAt_v3a {m : Model} (hm : m = .v3a) : ∀ p ∈ [(0, StkReg.ctlr), (4, .cntl), (8, .cnth), (0xC, .cmpl),
    (0x10, .cmph)], TimerRegAt m p.1 p.2 := by
  subst hm
  simp only [List.forall_mem_cons, List.not_mem_nil, false_imp_iff, implies_true, and_true]
  refine ⟨?_, ?_, ?_, ?_, ?_⟩ <;> exact ⟨rfl, by decide, by decide⟩

theorem timerRegAt_v3bc {m : Model} (hm : m ≠ .v3a) : ∀ p ∈ [(0, StkReg.ctlr), (4, .sr), (8, .cntl), (0x10, .cmpl)],
    TimerRegAt m p.1 p.2 := by
  simp only [List.forall_mem_cons, List.not_mem_nil, false_imp_iff, implies_true, and_true]
  refine ⟨?_, ?_, ?_, ?_⟩ <;>
    exact ⟨rfl, by decide, fun l hl => (if_neg hm).trans (by revert l; decide)⟩

section
variable {s : State} {a : Word} {o l : Nat} {r : StkReg} (t : TimerRegAt s.cfg.model o r)
  (ha : a.toNat = 0xE000F000 + o + l) (hl : l < 4) {w : Width} (hw : aligned w a = true)
  (hword : stkWordOnly r = false ∨ w = .word)
include t ha hl hw hword

/-- A load from the timer completes with the lanes of the register. -/
theorem LoadAllowed.load_stk (hs : LoadAllowed s a) {i : Instr} {rd : Reg}
    (hi : exec i s = s.loadInstr w id rd a 4) :
    Completes i s rd (((stkValue s.stk r).extractLsb' (8 * l) (8 * widthBytes w)).zeroExtend 32) (s.pc + 4) := by
  have word := t.word
  have below := t.below
  have allowed : ¬(stkWordOnly r = true ∧ w ≠ .word) := by
    rintro ⟨h1, h2⟩
    rcases hword with h | h
    · rw [h] at h1; cases h1
    · exact h2 h
  have value : s.stkLoad w a =
      .ok (((stkValue s.stk r).extractLsb' (8 * l) (8 * widthBytes w)).zeroExtend 32) s := by
    rw [State.stkLoad, deviceOffset_stk (o := o + l) (by omega) (by omega), t.reg l hl]
    dsimp only
    rw [if_neg allowed, laneShift_eq, show a.toNat % 4 = l by omega, lane_load]
  refine .of_retire ?_
  rw [hi, hs.loadInstr_stk hw (s.target_stk (o := o + l) (by omega) (by omega)), value]
  rfl

/-- A store to the timer writes the lanes of the register; on V3A a wider one than a byte does not reach the counters
(R534, D24). -/
theorem StoreAllowed.store_stk (hs : StoreAllowed s a) {i : Instr} {v : Word}
    (hi : exec i s = s.storeInstr w a v 4) : exec i s = .next ((s.storing a).setStk
      (if stkWordOnly r = false ∧ s.cfg.model = .v3a ∧ w ≠ .byte then s.stk
        else stkAfterWrite s.cfg.model s.stk r w a v)) := by
  have below := t.below
  have reg : stkReg (s.storing a).cfg.model (deviceOffset a) = some r := by
    rw [deviceOffset_stk (o := o + l) (by omega) (by omega)]; exact t.reg l hl
  have stored : (s.storing a).stkStore w a v = .ok () ((s.storing a).setStk
      (if stkWordOnly r = false ∧ s.cfg.model = .v3a ∧ w ≠ .byte then s.stk
        else stkAfterWrite s.cfg.model s.stk r w a v)) := by
    rw [State.stkStore, reg]
    dsimp only
    cases hk : stkWordOnly r with
    | true =>
      have is_word : w = .word := hword.resolve_left (by rw [hk]; decide)
      rw [if_pos rfl, if_pos is_word, if_neg (by simp)]
      rfl
    | false =>
      rw [if_neg Bool.false_ne_true]
      by_cases ignored : s.cfg.model = .v3a ∧ w ≠ .byte
      · refine (if_pos ignored).trans ?_
        rw [if_pos ⟨rfl, ignored⟩]
        exact congrArg (Res.ok ()) (s.storing a).setStk_self.symm
      · refine (if_neg ignored).trans ?_
        rw [if_neg fun h => ignored h.2]
        rfl
  rw [hi, hs.storeInstr_stk hw (s.target_stk (o := o + l) (by omega) (by omega)), stored]
  rfl

end

/-- A counter or compare word at its address: what it holds, and the timer with another word in it. -/
structure CounterAt (s : State) (base : Nat) (old : Word) (put : Word → SysTick) (o : Nat) (r : StkReg) : Prop where
  at_offset : base = 0xE000F000 + o
  at_reg : TimerRegAt s.cfg.model o r
  counter : stkWordOnly r = false
  holds : stkValue s.stk r = old
  written : ∀ w a v, stkAfterWrite s.cfg.model s.stk r w a v = put (mergeLanes old v w a)
  status : ∀ x, (put x).sr = s.stk.sr
  control : ∀ x, (put x).ctlr = s.stk.ctlr

section
variable {s : State} {base : Nat} {old : Word} {put : Word → SysTick} {o : Nat} {r : StkReg}
  (c : CounterAt s base old put o r) {a : Word} {l : Nat} (hl : l < 4) (ha : a.toNat = base + l)
include c hl ha

theorem CounterAt.address : a.toNat % 4 = l := by
  have word := c.at_reg.word
  rw [ha, c.at_offset]
  omega

variable {w : Width} (hw : aligned w a = true)
include hw

/-- A load of some lanes of a counter. -/
theorem CounterAt.load (hs : LoadAllowed s a) {i : Instr} {rd : Reg} (hi : exec i s = s.loadInstr w id rd a 4) :
    Completes i s rd ((old.extractLsb' (8 * l) (8 * widthBytes w)).zeroExtend 32) (s.pc + 4) := by
  rw [← c.holds]
  exact hs.load_stk c.at_reg (by rw [ha, c.at_offset]) hl hw (.inl c.counter) hi

variable (hs : StoreAllowed s a) {i : Instr} {v : Word} (hi : exec i s = s.storeInstr w a v 4)
include hs hi

/-- A store of some lanes of a counter, where it reaches them, asserts no request. -/
theorem CounterAt.store (hm : s.cfg.model = .v3a → w = .byte) {x : Word}
    (hx : ∀ j, j < 4 → x.extractLsb' (8 * j) 8 =
      if l ≤ j ∧ j < l + widthBytes w then v.extractLsb' (8 * (j - l)) 8 else old.extractLsb' (8 * j) 8) :
    LeavesTimer i s a (put x) 0 := by
  have lane : laneShift a = 8 * l := by rw [laneShift_eq, c.address hl ha]
  have stored := hs.store_stk c.at_reg (by rw [ha, c.at_offset]) hl hw (.inl c.counter) hi
  rw [if_neg fun h => h.2.2 (hm h.2.1), c.written, ← eq_mergeLanes lane hx] at stored
  have leaves := LeavesTimer.of_setStk stored
  rwa [levelRequests_congr (c.status x) (c.control x), BitVec.and_not_self] at leaves

/-- On V3A a store wider than a byte changes nothing. -/
theorem CounterAt.store_ignored (hm : s.cfg.model = .v3a) (hb : w ≠ .byte) : LeavesTimer i s a s.stk 0 := by
  have stored := hs.store_stk c.at_reg (by rw [ha, c.at_offset]) hl hw (.inl c.counter) hi
  rw [if_pos ⟨c.counter, hm, hb⟩] at stored
  have leaves := LeavesTimer.of_setStk stored
  rwa [BitVec.and_not_self] at leaves

end

/-- A whole word, as a lane of four bytes. -/
theorem whole_word (x : Word) : (x.extractLsb' (8 * 0) (8 * widthBytes .word)).zeroExtend 32 = x :=
  (BitVec.setWidth_eq _).trans BitVec.extractLsb'_eq_self

section
variable {s : State} {a : Word} {o : Nat} {r : StkReg} (t : TimerRegAt s.cfg.model o r) (ha : a.toNat = 0xE000F000 + o)
include t ha

/-- A word load of a register. -/
theorem TimerRegAt.load_word (hs : LoadAllowed s a) {rd rs1 : Reg} {imm : BitVec 12} (he : s.effAddr rs1 imm = a) :
    Completes (.lw rd rs1 imm) s rd (stkValue s.stk r) (s.pc + 4) := by
  have word := t.word
  have instr : exec (.lw rd rs1 imm) s = s.loadInstr .word id rd a 4 := by rw [← he]; rfl
  have loaded := hs.load_stk t (l := 0) ha (by decide) (aligned_word_iff.mpr (by omega)) (.inr rfl) instr
  rwa [whole_word] at loaded

/-- A word store to STK_CTLR or STK_SR raises the requests that it newly asserts. -/
theorem TimerRegAt.store_control (hr : stkWordOnly r = true) (hs : StoreAllowed s a) {rs1 rs2 : Reg} {imm : BitVec 12}
    (he : s.effAddr rs1 imm = a) : LeavesTimer (.sw rs2 rs1 imm) s a
      (stkAfterWrite s.cfg.model s.stk r .word a (s.readReg rs2))
      (levelRequests s.cfg.model (stkAfterWrite s.cfg.model s.stk r .word a (s.readReg rs2)) &&&
        ~~~levelRequests s.cfg.model s.stk) := by
  have word := t.word
  have instr : exec (.sw rs2 rs1 imm) s = s.storeInstr .word a (s.readReg rs2) 4 := by rw [← he]; rfl
  have stored := hs.store_stk t (l := 0) ha (by decide) (aligned_word_iff.mpr (by omega)) (.inr rfl) instr
  rw [if_neg fun h => Bool.noConfusion (hr.symm.trans h.1)] at stored
  exact .of_setStk stored

end

/-- STK_CTLR is the first register on every model. -/
theorem timerRegAt_ctlr (m : Model) : TimerRegAt m 0 .ctlr := by
  by_cases hm : m = .v3a
  · exact timerRegAt_v3a hm (0, .ctlr) (by simp)
  · exact timerRegAt_v3bc hm (0, .ctlr) (by simp)

/-- Settles O45: each load reads the lanes of its register, each store merges them. -/
theorem timerRegisters : Obligations.TimerRegisters := by
  intro s rd rs1 rs2 imm a v k words counters raises lanes
  have word_at : ∀ e ∈ words, ∃ o r, TimerRegAt s.cfg.model o r ∧ e.1.toNat = 0xE000F000 + o ∧ stkValue s.stk r = e.2 := by
    intro e he
    by_cases hm : s.cfg.model = .v3a
    · simp only [words, if_pos hm, List.mem_cons, List.not_mem_nil, or_false] at he
      have reg := timerRegAt_v3a hm
      simp only [List.forall_mem_cons, List.not_mem_nil, false_imp_iff, implies_true, and_true] at reg
      obtain ⟨r0, r4, r8, rC, r10⟩ := reg
      rcases he with rfl | rfl | rfl | rfl | rfl
      exacts [⟨_, _, r0, rfl, rfl⟩, ⟨_, _, r4, rfl, rfl⟩, ⟨_, _, r8, rfl, rfl⟩, ⟨_, _, rC, rfl, rfl⟩, ⟨_, _, r10, rfl, rfl⟩]
    · simp only [words, if_neg hm, List.mem_cons, List.not_mem_nil, or_false] at he
      have reg := timerRegAt_v3bc hm
      simp only [List.forall_mem_cons, List.not_mem_nil, false_imp_iff, implies_true, and_true] at reg
      obtain ⟨r0, r4, r8, r10⟩ := reg
      rcases he with rfl | rfl | rfl | rfl
      exacts [⟨_, _, r0, rfl, rfl⟩, ⟨_, _, r4, rfl, rfl⟩, ⟨_, _, r8, rfl, rfl⟩, ⟨_, _, r10, rfl, rfl⟩]
  have counter_at : ∀ e ∈ counters, ∃ o r, CounterAt s e.1 e.2.1 e.2.2 o r := by
    intro e he
    by_cases hm : s.cfg.model = .v3a
    · simp only [counters, if_pos hm, List.mem_cons, List.not_mem_nil, or_false] at he
      have reg := timerRegAt_v3a hm
      simp only [List.forall_mem_cons, List.not_mem_nil, false_imp_iff, implies_true, and_true] at reg
      obtain ⟨-, r4, r8, rC, r10⟩ := reg
      rcases he with rfl | rfl | rfl | rfl
      · exact ⟨_, _, rfl, r4, rfl, rfl, fun _ _ _ => rfl, fun _ => rfl, fun _ => rfl⟩
      · exact ⟨_, _, rfl, r8, rfl, rfl, fun _ _ _ => rfl, fun _ => rfl, fun _ => rfl⟩
      · exact ⟨_, _, rfl, rC, rfl, rfl, fun _ _ _ => rfl, fun _ => rfl, fun _ => rfl⟩
      · exact ⟨_, _, rfl, r10, rfl, rfl, fun _ _ _ => rfl, fun _ => rfl, fun _ => rfl⟩
    · simp only [counters, if_neg hm, List.mem_cons, List.not_mem_nil, or_false] at he
      have reg := timerRegAt_v3bc hm
      simp only [List.forall_mem_cons, List.not_mem_nil, false_imp_iff, implies_true, and_true] at reg
      obtain ⟨-, -, r8, r10⟩ := reg
      rcases he with rfl | rfl
      · exact ⟨_, _, rfl, r8, rfl, rfl, fun _ _ _ => rfl, fun _ => rfl, fun _ => rfl⟩
      · exact ⟨_, _, rfl, r10, rfl, rfl, fun _ _ _ => rfl, fun _ => rfl, fun _ => rfl⟩
  refine ⟨fun hs => ⟨fun e he ha => ?_, fun e he l hl ha => ?_⟩, fun hs => ⟨fun ha => ?_, fun ha hm => ?_,
    fun e he l hl ha => ?_⟩⟩
  · obtain ⟨o, r, reg, at_offset, holds⟩ := word_at e he
    rw [← holds]
    exact reg.load_word (by rw [ha, at_offset]) hs rfl
  · obtain ⟨o, r, c⟩ := counter_at e he
    have lane := c.address hl ha
    exact ⟨c.load hl ha (w := .byte) rfl hs rfl,
      fun h2 => c.load hl ha (w := .half) (aligned_half_iff.mpr (by omega)) hs rfl⟩
  · have leaves := (timerRegAt_ctlr s.cfg.model).store_control (rs2 := rs2) (by rw [ha]; rfl) rfl hs rfl
    rw [levelRequests_raised] at leaves
    exact leaves
  · have reg : TimerRegAt s.cfg.model 4 .sr := timerRegAt_v3bc hm (4, .sr) (by simp)
    have leaves := reg.store_control (rs2 := rs2) (by rw [ha]; rfl) rfl hs rfl
    rw [levelRequests_raised] at leaves
    exact leaves
  · obtain ⟨o, r, c⟩ := counter_at e he
    have lane := c.address hl ha
    refine ⟨fun x hx => ?_, fun h2 hm x hx => ?_, fun h0 hm => ?_, fun h2 hm => ?_, fun h0 hm => ?_⟩
    · exact c.store hl ha (w := .byte) rfl hs rfl (fun _ => rfl) hx
    · exact c.store hl ha (w := .half) (aligned_half_iff.mpr (by omega)) hs rfl (fun h => absurd h hm) hx
    · refine c.store hl ha (w := .word) (aligned_word_iff.mpr (by omega)) hs rfl (fun h => absurd h hm) fun j hj => ?_
      subst h0
      exact (if_pos ⟨Nat.zero_le j, by simpa [widthBytes] using hj⟩).symm
    · exact c.store_ignored hl ha (w := .half) (aligned_half_iff.mpr (by omega)) hs rfl hm (by decide)
    · exact c.store_ignored hl ha (w := .word) (aligned_word_iff.mpr (by omega)) hs rfl hm (by decide)

end Sys2Proof.Machine

/-! SUPPORT. The timer counts (spec/62_systick_power_debug.md R530 to R540): which periods of HCLK tick, what a tick does
to the count, and the count after any number of ticks in each mode. -/

namespace Sys2Proof.Machine

/-! ## Periods of HCLK -/

theorem State.hclkPeriods_add (s : State) : ∀ j k : Nat, s.hclkPeriods (j + k) = (s.hclkPeriods j).hclkPeriods k
  | 0, k => by rw [Nat.zero_add]; rfl
  | j + 1, k => by rw [Nat.add_right_comm]; exact State.hclkPeriods_add s.hclkPeriod j k

/-- The state with another phase of the divider (log entry 20). -/
def State.divided (s : State) (d : BitVec 3) : State := { s with stk := { s.stk with div := d } }

/-- A period turns the divider, and ticks where the counter counts and its clock comes. -/
theorem State.hclkPeriod_eq (s : State) : s.hclkPeriod =
    if s.counting && (s.fullClock || s.stk.div == 7) then (s.divided (s.stk.div + 1)).tick
    else s.divided (s.stk.div + 1) := rfl

/-- What a period leaves as it is of all that decides whether and how the counter counts. -/
structure SameClock (s t : State) : Prop where
  cfg : t.cfg = s.cfg
  csr : t.csr = s.csr
  sleep : t.sleep = s.sleep
  dbg : t.dbg = s.dbg
  ctlr : t.stk.ctlr = s.stk.ctlr
  cmpl : t.stk.cmpl = s.stk.cmpl
  cmph : t.stk.cmph = s.stk.cmph

theorem SameClock.trans {s t u : State} (h : SameClock s t) (h' : SameClock t u) : SameClock s u :=
  ⟨h'.cfg.trans h.cfg, h'.csr.trans h.csr, h'.sleep.trans h.sleep, h'.dbg.trans h.dbg, h'.ctlr.trans h.ctlr,
    h'.cmpl.trans h.cmpl, h'.cmph.trans h.cmph⟩

theorem SameClock.counting {s t : State} (h : SameClock s t) : t.counting = s.counting := by
  unfold State.counting
  rw [h.ctlr, h.sleep, h.dbg, h.csr]

theorem SameClock.fullClock {s t : State} (h : SameClock s t) : t.fullClock = s.fullClock := by
  unfold State.fullClock
  rw [h.cfg, h.ctlr]

theorem State.divided_sameClock (s : State) (d : BitVec 3) : SameClock s (s.divided d) :=
  ⟨rfl, rfl, rfl, rfl, rfl, rfl, rfl⟩

theorem State.tick_sameClock (s : State) : SameClock s s.tick := by
  unfold State.tick
  split
  · split <;> exact ⟨rfl, rfl, rfl, rfl, rfl, rfl, rfl⟩
  · exact ⟨rfl, rfl, rfl, rfl, rfl, rfl, rfl⟩

/-- A tick leaves the divider alone. -/
theorem State.tick_div (s : State) : s.tick.stk.div = s.stk.div := by
  unfold State.tick
  split
  · split <;> rfl
  · rfl

theorem State.hclkPeriod_sameClock (s : State) : SameClock s s.hclkPeriod := by
  rw [State.hclkPeriod_eq]
  split
  · exact (s.divided_sameClock _).trans (State.tick_sameClock _)
  · exact s.divided_sameClock _

theorem State.hclkPeriods_sameClock : ∀ (s : State) (k : Nat), SameClock s (s.hclkPeriods k)
  | _, 0 => ⟨rfl, rfl, rfl, rfl, rfl, rfl, rfl⟩
  | s, k + 1 => s.hclkPeriod_sameClock.trans (State.hclkPeriods_sameClock _ k)

/-! ## The counter holds (R532, R537, R551) -/

/-- A period in which the counter does not count turns the divider only. -/
theorem State.hclkPeriod_held {s : State} (h : s.counting = false) : s.hclkPeriod = s.divided (s.stk.div + 1) := by
  rw [State.hclkPeriod_eq, h]
  rfl

theorem State.hclkPeriods_held : ∀ {s : State} (_ : s.counting = false) (k : Nat), ∃ d, s.hclkPeriods k = s.divided d
  | s, _, 0 => ⟨s.stk.div, rfl⟩
  | s, h, k + 1 => by
    obtain ⟨d, hd⟩ := State.hclkPeriods_held ((s.divided_sameClock (s.stk.div + 1)).counting.trans h) k
    exact ⟨d, (congrArg (State.hclkPeriods · k) (State.hclkPeriod_held h)).trans hd⟩

/-- The counter counts where STE is set, but not in Deep Sleep, and not in debug mode with stoptime. -/
theorem State.counting_iff {s : State} : s.counting = true ↔ s.stk.ctlr.getLsbD 0 = true ∧
    (∀ w, s.sleep ≠ .asleep true w) ∧ (s.dbg = .running ∨ s.csr.dcsr.getLsbD 9 = false) := by
  have clocked : (!(decide (s.dbg ≠ .running) && s.csr.dcsr.getLsbD 9)) = true ↔
      (s.dbg = .running ∨ s.csr.dcsr.getLsbD 9 = false) := by
    rw [Bool.not_eq_true', Bool.and_eq_false_iff, decide_eq_false_iff_not, not_not]
  rw [State.counting, Bool.and_eq_true, Bool.and_eq_true, clocked, and_assoc]
  refine and_congr_right fun _ => and_congr_left fun _ => ?_
  rcases s.sleep with _ | ⟨deep, w⟩
  · simp
  · cases deep <;> simp

/-! ## Ticks (R530, R532) -/

/-- How many periods of HCLK a tick takes. -/
def State.clockPeriod (s : State) : Nat := if s.fullClock then 1 else 8

theorem SameClock.clockPeriod {s t : State} (h : SameClock s t) : t.clockPeriod = s.clockPeriod := by
  unfold State.clockPeriod
  rw [h.fullClock]

/-- The counter counts, and its clock is in the phase from which the next tick takes a whole tick period. -/
def State.OnTick (s : State) : Prop := s.counting = true ∧ (s.fullClock = true ∨ s.stk.div = 0)

section
variable {s : State}

/-- A divider that has just rolled over gives no tick for seven periods. -/
theorem State.hclkPeriods_between (hf : s.fullClock = false) (hd : s.stk.div = 0) :
    ∀ {j : Nat}, j < 8 → s.hclkPeriods j = s.divided (BitVec.ofNat 3 j)
  | 0, _ => by
    have phase : BitVec.ofNat 3 0 = s.stk.div := hd.symm
    rw [phase]
    rfl
  | j + 1, hj => by
    have same := s.divided_sameClock (BitVec.ofNat 3 j)
    have early : (s.divided (BitVec.ofNat 3 j)).stk.div ≠ 7 := by
      show BitVec.ofNat 3 j ≠ BitVec.ofNat 3 7
      rw [ne_eq, ← BitVec.toNat_inj, BitVec.toNat_ofNat, BitVec.toNat_ofNat]
      omega
    rw [State.hclkPeriods_add, State.hclkPeriods_between hf hd (by omega)]
    show (s.divided (BitVec.ofNat 3 j)).hclkPeriod = _
    rw [State.hclkPeriod_eq, same.fullClock, hf, beq_eq_false_iff_ne.mpr early, Bool.or_false, Bool.and_false,
      BitVec.ofNat_add]
    rfl

/-- A tick period is one tick, and ends where the next one begins. -/
theorem State.OnTick.period (h : s.OnTick) :
    (∃ d, s.hclkPeriods s.clockPeriod = (s.divided d).tick) ∧ (s.hclkPeriods s.clockPeriod).OnTick := by
  obtain ⟨hc, hd⟩ := h
  have same := s.hclkPeriods_sameClock s.clockPeriod
  cases hf : s.fullClock with
  | true =>
    refine ⟨⟨s.stk.div + 1, ?_⟩, same.counting.trans hc, .inl (same.fullClock.trans hf)⟩
    rw [State.clockPeriod, hf, if_pos rfl]
    show s.hclkPeriod = _
    rw [State.hclkPeriod_eq, hc, hf]
    rfl
  | false =>
    have zero := hd.resolve_left (by rw [hf]; decide)
    have seventh := s.divided_sameClock (BitVec.ofNat 3 7)
    have due : ((s.divided (BitVec.ofNat 3 7)).counting && ((s.divided (BitVec.ofNat 3 7)).fullClock ||
        (s.divided (BitVec.ofNat 3 7)).stk.div == 7)) = true := by
      rw [seventh.counting, hc, seventh.fullClock, hf]
      rfl
    have tick : s.hclkPeriods s.clockPeriod = (s.divided 0).tick := by
      rw [State.clockPeriod, hf, if_neg Bool.false_ne_true, s.hclkPeriods_add 7 1,
        State.hclkPeriods_between hf zero (by omega)]
      show (s.divided (BitVec.ofNat 3 7)).hclkPeriod = _
      have wraps : (s.divided (BitVec.ofNat 3 7)).stk.div + 1 = 0 := (by decide : BitVec.ofNat 3 7 + 1 = 0)
      rw [State.hclkPeriod_eq, due, if_pos rfl, wraps]
      rfl
    refine ⟨⟨0, tick⟩, same.counting.trans hc, .inr ?_⟩
    rw [tick, State.tick_div]
    rfl

theorem State.hclkPeriods_succ_tick (k : Nat) : s.hclkPeriods (s.clockPeriod * (k + 1)) =
    (s.hclkPeriods (s.clockPeriod * k)).hclkPeriods (s.hclkPeriods (s.clockPeriod * k)).clockPeriod := by
  rw [(s.hclkPeriods_sameClock (s.clockPeriod * k)).clockPeriod, Nat.mul_succ, State.hclkPeriods_add]

theorem State.OnTick.ticks (h : s.OnTick) : ∀ k, (s.hclkPeriods (s.clockPeriod * k)).OnTick
  | 0 => h
  | k + 1 => by
    rw [State.hclkPeriods_succ_tick]
    exact (State.OnTick.ticks h k).period.2

/-- The next tick. -/
theorem State.OnTick.succ (h : s.OnTick) (k : Nat) : ∃ d, s.hclkPeriods (s.clockPeriod * (k + 1)) =
    ((s.hclkPeriods (s.clockPeriod * k)).divided d).tick := by
  rw [State.hclkPeriods_succ_tick]
  exact (h.ticks k).period.1

end

/-! ## The 64-bit counter (V3A) -/

def SysTick.count (t : SysTick) : BitVec 64 := t.cnth ++ t.cntl

def SysTick.compare (t : SysTick) : BitVec 64 := t.cmph ++ t.cmpl

/-- The two words of a count make it up. -/
theorem high_append_low (c : BitVec 64) : (c.extractLsb' 32 32 ++ c.extractLsb' 0 32 : BitVec 64) = c :=
  BitVec.extractLsb'_append_extractLsb'_eq_extractLsb' (by rfl) |>.trans BitVec.extractLsb'_eq_self

theorem tick64_count (t : SysTick) : (tick64 t).1.count = t.count + 1 := high_append_low _

section
variable {s : State} (hm : s.cfg.model = .v3a)
include hm

theorem State.tick_count64 : s.tick.stk.count = s.stk.count + 1 := by
  rw [State.tick, if_pos hm]
  split <;> exact tick64_count s.stk

/-- The tick that reaches the compare value requests interrupt 12. -/
theorem State.tick_match64 (h : s.stk.count + 1 = s.stk.compare) : s.tick.pfic.pend.getLsbD 12 = true := by
  have hit : (tick64 s.stk).2 = true := beq_iff_eq.mpr h
  rw [State.tick, if_pos hm, if_pos hit]
  show (s.request 0x1000).pfic.pend.getLsbD 12 = true
  rw [State.request_eq]
  show (s.pfic.pend ||| 0x1000).getLsbD 12 = true
  rw [BitVec.getLsbD_or, Bool.or_eq_true]
  exact .inr rfl

theorem State.OnTick.count64 (h : s.OnTick) : ∀ k, (s.hclkPeriods (s.clockPeriod * k)).stk.count =
    s.stk.count + BitVec.ofNat 64 k
  | 0 => (BitVec.add_zero _).symm
  | k + 1 => by
    obtain ⟨d, ht⟩ := h.succ k
    have model := ((s.hclkPeriods_sameClock (s.clockPeriod * k)).trans (State.divided_sameClock _ d)).cfg
    rw [ht, State.tick_count64 (by rw [model, hm])]
    show (s.hclkPeriods (s.clockPeriod * k)).stk.count + 1 = _
    rw [State.OnTick.count64 h k, BitVec.ofNat_add, BitVec.add_assoc]
    rfl

theorem State.OnTick.match64 (h : s.OnTick) {k : Nat} (hk : k ≠ 0)
    (hv : s.stk.compare = s.stk.count + BitVec.ofNat 64 k) :
    (s.hclkPeriods (s.clockPeriod * k)).pfic.pend.getLsbD 12 = true := by
  obtain ⟨j, rfl⟩ := Nat.exists_eq_succ_of_ne_zero hk
  obtain ⟨d, ht⟩ := h.succ j
  have same := (s.hclkPeriods_sameClock (s.clockPeriod * j)).trans (State.divided_sameClock _ d)
  rw [ht]
  refine State.tick_match64 (by rw [same.cfg, hm]) ?_
  show (s.hclkPeriods (s.clockPeriod * j)).stk.count + 1 = SysTick.compare _
  rw [SysTick.compare, same.cmph, same.cmpl, h.count64 hm j, BitVec.add_assoc]
  exact (hv.trans (congrArg _ (BitVec.ofNat_add j 1))).symm

end

/-! ## The 32-bit counter (V3B, V3C) -/

/-- The count that sets CNTIF (R537). -/
def SysTick.ending (t : SysTick) : Word := if t.ctlr.getLsbD 4 then 0 else t.cmpl

theorem tick32_eq (t : SysTick) : tick32 t =
    { t with cntl := nextCount t, sr := if nextCount t = t.ending then t.sr ||| 1 else t.sr } := by
  unfold tick32 SysTick.ending
  cases t.ctlr.getLsbD 4 <;> simp

section
variable {t : SysTick}

theorem nextCount_up (h3 : t.ctlr.getLsbD 3 = false) (h4 : t.ctlr.getLsbD 4 = false) : nextCount t = t.cntl + 1 := by
  simp only [nextCount, h3, h4, Bool.false_eq_true, if_false, false_and]

theorem nextCount_down (h3 : t.ctlr.getLsbD 3 = false) (h4 : t.ctlr.getLsbD 4 = true) : nextCount t = t.cntl - 1 := by
  simp only [nextCount, h3, h4, Bool.false_eq_true, if_false, if_true, false_and]

theorem nextCount_up_reload (h3 : t.ctlr.getLsbD 3 = true) (h4 : t.ctlr.getLsbD 4 = false) :
    nextCount t = if t.cntl = t.cmpl then 0 else t.cntl + 1 := by
  simp only [nextCount, h3, h4, Bool.false_eq_true, if_false, true_and]

theorem nextCount_down_reload (h3 : t.ctlr.getLsbD 3 = true) (h4 : t.ctlr.getLsbD 4 = true) :
    nextCount t = if t.cntl = 0 then t.cmpl else t.cntl - 1 := by
  simp only [nextCount, h3, h4, if_true, true_and]

end

section
variable {s : State} (hm : s.cfg.model ≠ .v3a) (h : s.OnTick)
include hm h

theorem State.OnTick.succ32 (k : Nat) :
    (s.hclkPeriods (s.clockPeriod * (k + 1))).stk.cntl = nextCount (s.hclkPeriods (s.clockPeriod * k)).stk ∧
    (s.hclkPeriods (s.clockPeriod * (k + 1))).stk.sr =
      if nextCount (s.hclkPeriods (s.clockPeriod * k)).stk = s.stk.ending
      then (s.hclkPeriods (s.clockPeriod * k)).stk.sr ||| 1 else (s.hclkPeriods (s.clockPeriod * k)).stk.sr := by
  obtain ⟨d, ht⟩ := h.succ k
  have same := s.hclkPeriods_sameClock (s.clockPeriod * k)
  have model : ((s.hclkPeriods (s.clockPeriod * k)).divided d).cfg.model ≠ .v3a := by
    rw [(same.trans (State.divided_sameClock _ d)).cfg]
    exact hm
  have ending : s.stk.ending = (s.hclkPeriods (s.clockPeriod * k)).stk.ending := by
    rw [SysTick.ending, SysTick.ending, same.ctlr, same.cmpl]
  rw [ht, ending, State.tick, if_neg model, tick32_eq]
  exact ⟨rfl, rfl⟩

/-- The tick that reaches the count ending a round sets the flag. -/
theorem State.OnTick.flag {k : Nat} (hk : k ≠ 0)
    (he : (s.hclkPeriods (s.clockPeriod * k)).stk.cntl = s.stk.ending) :
    (s.hclkPeriods (s.clockPeriod * k)).stk.sr.getLsbD 0 = true := by
  obtain ⟨j, rfl⟩ := Nat.exists_eq_succ_of_ne_zero hk
  obtain ⟨hc, hf⟩ := h.succ32 hm j
  rw [hf, if_pos (hc.symm.trans he), BitVec.getLsbD_or, Bool.or_eq_true]
  exact .inr rfl

theorem State.OnTick.count_up (h3 : s.stk.ctlr.getLsbD 3 = false) (h4 : s.stk.ctlr.getLsbD 4 = false) :
    ∀ k, (s.hclkPeriods (s.clockPeriod * k)).stk.cntl = s.stk.cntl + BitVec.ofNat 32 k
  | 0 => (BitVec.add_zero _).symm
  | k + 1 => by
    have same := s.hclkPeriods_sameClock (s.clockPeriod * k)
    rw [(h.succ32 hm k).1, nextCount_up (by rw [same.ctlr, h3]) (by rw [same.ctlr, h4]),
      State.OnTick.count_up h3 h4 k, BitVec.ofNat_add, BitVec.add_assoc]
    rfl

theorem State.OnTick.count_down (h3 : s.stk.ctlr.getLsbD 3 = false) (h4 : s.stk.ctlr.getLsbD 4 = true) :
    ∀ k, (s.hclkPeriods (s.clockPeriod * k)).stk.cntl = s.stk.cntl - BitVec.ofNat 32 k
  | 0 => (BitVec.sub_zero _).symm
  | k + 1 => by
    have same := s.hclkPeriods_sameClock (s.clockPeriod * k)
    rw [(h.succ32 hm k).1, nextCount_down (by rw [same.ctlr, h3]) (by rw [same.ctlr, h4]),
      State.OnTick.count_down h3 h4 k, BitVec.ofNat_add, BitVec.sub_sub]
    rfl

/-- Counting down with reload, as far as 0. -/
theorem State.OnTick.count_down_reload (h3 : s.stk.ctlr.getLsbD 3 = true) (h4 : s.stk.ctlr.getLsbD 4 = true) :
    ∀ {k : Nat}, k ≤ s.stk.cntl.toNat →
      (s.hclkPeriods (s.clockPeriod * k)).stk.cntl = s.stk.cntl - BitVec.ofNat 32 k
  | 0, _ => (BitVec.sub_zero _).symm
  | k + 1, hk => by
    have same := s.hclkPeriods_sameClock (s.clockPeriod * k)
    have count := State.OnTick.count_down_reload h3 h4 (k := k) (by omega)
    have left : s.stk.cntl - BitVec.ofNat 32 k ≠ 0 := by bv_omega
    rw [(h.succ32 hm k).1, nextCount_down_reload (by rw [same.ctlr, h3]) (by rw [same.ctlr, h4]), count,
      if_neg left, BitVec.ofNat_add, BitVec.sub_sub]
    rfl

/-- Counting up with reload, as far as the compare value, from 0 with the flag clear. -/
theorem State.OnTick.count_up_reload (h3 : s.stk.ctlr.getLsbD 3 = true) (h4 : s.stk.ctlr.getLsbD 4 = false)
    (hz : s.stk.cntl = 0) : ∀ {k : Nat}, k ≤ s.stk.cmpl.toNat →
      (s.hclkPeriods (s.clockPeriod * k)).stk.cntl = BitVec.ofNat 32 k
  | 0, _ => hz
  | k + 1, hk => by
    have same := s.hclkPeriods_sameClock (s.clockPeriod * k)
    have count := State.OnTick.count_up_reload h3 h4 hz (k := k) (by omega)
    have left : BitVec.ofNat 32 k ≠ s.stk.cmpl := by bv_omega
    rw [(h.succ32 hm k).1, nextCount_up_reload (by rw [same.ctlr, h3]) (by rw [same.ctlr, h4]), count, same.cmpl,
      if_neg left, BitVec.ofNat_add]
    rfl

end

/-! ## The obligations -/

theorem State.clockPeriod_v3a {s : State} (hm : s.cfg.model = .v3a) : s.clockPeriod = 8 := by
  rw [State.clockPeriod, State.fullClock, hm]
  rfl

theorem State.clockPeriod_v3bc {s : State} (hm : s.cfg.model ≠ .v3a) :
    s.clockPeriod = if s.stk.ctlr.getLsbD 2 then 1 else 8 := by
  rw [State.clockPeriod, State.fullClock, decide_eq_true hm, Bool.true_and]

/-- Settles O46: the count up with reload, one tick a period. -/
theorem timerCountsToCompare : Obligations.TimerCountsToCompare := by
  intro s hm hdbg hsleep hctlr hsr hcntl hcmpl
  have bit (n : Nat) : s.stk.ctlr.getLsbD n = (0xF : Word).getLsbD n := by rw [hctlr]
  have period : s.clockPeriod = 1 := by rw [State.clockPeriod_v3bc hm, bit 2]; rfl
  have full : s.fullClock = true := by rw [State.fullClock, bit 2, decide_eq_true hm]; rfl
  have counting : s.counting = true := State.counting_iff.mpr
    ⟨(bit 0).trans rfl, by rw [hsleep]; nofun, .inl hdbg⟩
  have h : s.OnTick := ⟨counting, .inl full⟩
  have reload := (bit 3).trans (by rfl : _ = true)
  have up := (bit 4).trans (by rfl : _ = false)
  have ending : s.stk.ending = s.stk.cmpl := by rw [SysTick.ending, up]; rfl
  have count {k : Nat} (hk : k ≤ s.stk.cmpl.toNat) : (s.hclkPeriods k).stk.cntl = BitVec.ofNat 32 k := by
    have := h.count_up_reload hm reload up hcntl hk
    rwa [period, Nat.one_mul] at this
  have next (k : Nat) := h.succ32 hm k
  simp only [period, Nat.one_mul, ending] at next
  have clear : ∀ {k : Nat}, k < s.stk.cmpl.toNat → (s.hclkPeriods k).stk.sr = 0 := by
    intro k
    induction k with
    | zero => exact fun _ => hsr
    | succ k ih =>
      intro hk
      have early : (s.hclkPeriods (k + 1)).stk.cntl ≠ s.stk.cmpl := by
        rw [count hk.le]
        bv_omega
      rw [(next k).2, ← (next k).1, if_neg early, ih (by omega)]
  obtain ⟨last, hlast⟩ := Nat.exists_eq_succ_of_ne_zero
    (fun zero => hcmpl (BitVec.eq_of_toNat_eq zero) : s.stk.cmpl.toNat ≠ 0)
  have reached : (s.hclkPeriods s.stk.cmpl.toNat).stk.cntl = s.stk.cmpl := by
    rw [count le_rfl, BitVec.ofNat_toNat, BitVec.setWidth_eq]
  have flagged : (s.hclkPeriods s.stk.cmpl.toNat).stk.sr = 1 := by
    have here := next last
    rw [← Nat.succ_eq_add_one, ← hlast] at here
    rw [here.2, ← here.1, if_pos reached, clear (by omega)]
    rfl
  have same := s.hclkPeriods_sameClock s.stk.cmpl.toNat
  refine ⟨fun k hk => ⟨count hk.le, clear hk⟩, reached, flagged, ?_, ?_⟩
  · rw [State.getLsbD_pending, flagged, same.ctlr, hctlr, same.cfg, decide_eq_true hm, Bool.or_eq_true]
    exact .inr rfl
  · rw [(next _).1, nextCount_up_reload (by rw [same.ctlr, reload]) (by rw [same.ctlr, up]), same.cmpl, if_pos reached]

/-- Settles O47: each clause is the counter's behaviour in one mode, the tick period being 1 or 8 periods of HCLK. -/
theorem timerModes : Obligations.TimerModes := by
  intro s
  refine ⟨fun holds k => ?_, fun enabled awake running phase => ⟨fun hm k => ?_, fun hm k => ?_⟩⟩
  · have still : s.counting = false := by
      rw [← Bool.not_eq_true, State.counting_iff]
      rintro ⟨enabled, awake, running⟩
      rcases holds with off | ⟨w, asleep⟩ | ⟨halted, stopped⟩
      · exact absurd (off.symm.trans enabled) Bool.false_ne_true
      · exact awake w asleep
      · exact running.elim halted fun h => absurd (h.symm.trans stopped) Bool.false_ne_true
    obtain ⟨d, hd⟩ := State.hclkPeriods_held still k
    rw [hd]
    exact ⟨rfl, rfl⟩
  · have h : s.OnTick := ⟨State.counting_iff.mpr ⟨enabled, awake, running⟩, .inr phase⟩
    have count := h.count64 hm k
    have request := h.match64 hm (k := k)
    have after := h.ticks k
    rw [State.clockPeriod_v3a hm] at count request after
    refine ⟨fun j hj => ?_, request⟩
    have slow : (s.hclkPeriods (8 * k)).fullClock = false := by
      rw [State.fullClock, (s.hclkPeriods_sameClock _).cfg, hm]
      rfl
    rw [State.hclkPeriods_add, State.hclkPeriods_between slow (after.2.resolve_left (by rw [slow]; decide)) hj]
    exact count
  · have h : s.OnTick := ⟨State.counting_iff.mpr ⟨enabled, awake, running⟩, .inr phase⟩
    rw [← State.clockPeriod_v3bc hm]
    have flag (hk : k ≠ 0) := h.flag hm hk
    refine ⟨fun h3 h4 => ⟨h.count_up hm h3 h4 k, fun hk he => flag hk ?_⟩,
      fun h3 h4 => ⟨h.count_down hm h3 h4 k, fun hk he => flag hk ?_⟩,
      fun h3 h4 => ⟨fun hk => ⟨h.count_down_reload hm h3 h4 hk, fun hk he => flag hk ?_⟩, ?_⟩⟩
    · rw [he, SysTick.ending, h4]
      rfl
    · rw [he, SysTick.ending, h4]
      rfl
    · rw [he, SysTick.ending, h4]
      rfl
    · rintro rfl
      have same := s.hclkPeriods_sameClock (s.clockPeriod * s.stk.cntl.toNat)
      have zero : (s.hclkPeriods (s.clockPeriod * s.stk.cntl.toNat)).stk.cntl = 0 := by
        rw [h.count_down_reload hm h3 h4 le_rfl, BitVec.ofNat_toNat, BitVec.setWidth_eq]
        exact BitVec.sub_self _
      rw [(h.succ32 hm _).1, nextCount_down_reload (by rw [same.ctlr, h3]) (by rw [same.ctlr, h4]), if_pos zero, same.cmpl]

end Sys2Proof.Machine

/-! SUPPORT. Sleep, halt, single step and resume (spec/62_systick_power_debug.md R550 to R575): the boundary of a core
that gets no input, and the ends of a step. -/

namespace Sys2Proof.Machine

/-! ## Steps without an input -/

theorem State.absorb_nothing {s : State} (hi : s.inputs = []) : s.absorb = .ok () s := by
  unfold State.absorb
  rw [hi]

theorem step_running {s : State} (hd : s.dbg = .running) (hi : s.inputs = []) : step s = s.runningCycle := by
  rw [step, State.cycle, State.absorb_nothing hi, State.run]
  simp only [hd]

theorem step_halted {s : State} (hd : s.dbg = .halted) (hi : s.inputs = []) : step s = .next s := by
  rw [step, State.cycle, State.absorb_nothing hi, State.run]
  simp only [hd]

/-! ## Sleep (R552 to R554) -/

/-- Where no enabled number is pending there is nothing to accept: NMI, of a fixed slot, is always enabled. -/
theorem State.acceptedInterrupt_of_idle {s : State} (h : s.pending &&& s.enabled = 0) : s.acceptedInterrupt = none := by
  have nmi : s.pending.getLsbD 2 = false := by
    have enabled : s.enabled.getLsbD 2 = true := (State.getLsbD_enabled (.inl (by decide))).trans rfl
    have bit := congrArg (BitVec.getLsbD · 2) h
    rwa [BitVec.getLsbD_and, enabled, Bool.and_true] at bit
  have requested : (s.requested == 0) = true := by
    rw [State.requested, h]
    exact beq_iff_eq.mpr BitVec.zero_and
  rw [State.acceptedInterrupt, State.nmiReady, nmi, State.programmableWinner, requested, Bool.or_true]
  rfl

/-- What wakes a sleeping core with no enabled interrupt pending: the event that a WFE waits for (R553). -/
theorem State.wake_of_idle {s : State} {deep wfe : Bool} (hs : s.sleep = .asleep deep wfe)
    (h : s.pending &&& s.enabled = 0) :
    s.wake = if wfe && s.eventLatch then { s with sleep := .awake, eventLatch := false } else s := by
  have idle : s.wakeable = false := by
    rw [State.wakeable, h]
    rfl
  unfold State.wake
  rw [hs, State.acceptedInterrupt_of_idle h, idle]
  rfl

theorem State.runningCycle_of_no_halt {s : State} (h : s.dm.haltreq = false ∨ s.deepAsleep = true) :
    s.runningCycle = if s.wake.sleep = .awake then mapNext State.endStep s.wake.boundary else .next s.wake := by
  refine if_neg ?_
  rw [Bool.not_eq_true, Bool.and_eq_false_iff, Bool.not_eq_false']
  exact h

/-- Settles O48: the wake-up decides, and a state that it wakes is its own wake-up. -/
theorem sleepingCoreWaits : Obligations.SleepingCoreWaits := by
  intro s deep wfe hd hi hs
  refine ⟨fun halt idle still => ?_, fun halt idle waits event => ?_⟩
  · have unseen : s.dm.haltreq = false ∨ s.deepAsleep = true := halt.imp_right fun h => by
      rw [State.deepAsleep, hs, h]
    have asleep : s.wake = s := by
      rw [State.wake_of_idle hs idle, still]
      rfl
    rw [step_running hd hi, State.runningCycle_of_no_halt unseen, asleep, hs]
    rfl
  · have woken : s.wake = { s with sleep := .awake, eventLatch := false } := by
      rw [State.wake_of_idle hs idle, waits, event]
      rfl
    rw [step_running hd hi, step_running (s := { s with sleep := .awake, eventLatch := false }) hd hi,
      State.runningCycle_of_no_halt (.inl halt),
      State.runningCycle_of_no_halt (s := { s with sleep := .awake, eventLatch := false }) (.inl halt), woken]
    rfl

/-! ## Halt (R570, R573) -/

theorem step_halts {s : State} (hd : s.dbg = .running) (hi : s.inputs = []) (hh : s.dm.haltreq = true)
    (ha : s.deepAsleep = false) : step s = .next s.halt := by
  rw [step_running hd hi, State.runningCycle, hh, ha]
  rfl

/-- The parcels that an instruction needs are fetched, and decode as the bytes at the pc do. -/
theorem CodeFetchable.fetch {s : State} {i : Instr} {n : Nat} (hc : CodeFetchable s n)
    (hd : decode (codeBytes s) = .ok (i, n)) : ∃ bytes, s.fetch = .ok bytes s ∧ decode bytes = .ok (i, n) := by
  obtain ⟨h1, h2⟩ := hc
  have second : isLong (Memory.read s.mem s.pc.toNat) = true → Fetchable s (s.pc + 2) := fun hl => by
    rcases decode_long hl _ _ _ [] with ⟨j, hj⟩ | ⟨w, hw⟩ | ⟨w, hw⟩
    · exact h2 (congrArg Prod.snd (Except.ok.inj (hd.symm.trans hj)))
    · exact absurd (hd.symm.trans hw) nofun
    · exact absurd (hd.symm.trans hw) nofun
  obtain ⟨bytes, hb, he⟩ := h1.fetch second
  exact ⟨bytes, hb, he.trans hd⟩

/-- A halt request at an instruction that can be fetched, where ebreak enters debug mode: an ebreak is the cause. -/
theorem State.halt_of_code {s : State} {i : Instr} {n : Nat} (hf : s.firedTrigger .fetch s.pc = none)
    (he : s.ebreakToDebug = true) (hc : CodeFetchable s n) (hd : decode (codeBytes s) = .ok (i, n)) :
    s.halt = s.enterDebug (if i = .ebreak ∨ i = .cEbreak then 1 else 3) s.pc := by
  obtain ⟨bytes, hb, hi⟩ := hc.fetch hd
  have found : s.ebreakAtPc = if i = .ebreak ∨ i = .cEbreak then some s else none := by
    simp only [State.ebreakAtPc, he, if_true, hb, hi]
  unfold State.halt
  rw [hf, found]
  by_cases breaks : i = .ebreak ∨ i = .cEbreak
  · rw [if_pos breaks, if_pos breaks]
  · rw [if_neg breaks, if_neg breaks]

/-- A halt request with no trigger on the pc, where ebreak does not enter debug mode. -/
theorem State.halt_of_no_ebreak {s : State} (hf : s.firedTrigger .fetch s.pc = none) (he : s.ebreakToDebug = false) :
    s.halt = s.enterDebug 3 s.pc := by
  have found : s.ebreakAtPc = none := if_neg (by rw [he]; decide)
  unfold State.halt
  rw [hf, found]

theorem State.halt_of_trigger {s : State} (hf : s.firedTrigger .fetch s.pc = some true) :
    s.halt = s.enterDebugByTrigger := by
  unfold State.halt
  rw [hf]

/-! ## The single step (R570, R574) -/

theorem State.endStep_of_clear {t : State} (h : t.csr.dcsr.getLsbD 2 = false) : t.endStep = t := by
  rw [State.endStep, h]
  rfl

theorem State.endStep_of_step {t : State} (h : t.csr.dcsr.getLsbD 2 = true) (hd : t.dbg = .running) :
    t.endStep = t.enterAfterStep := by
  rw [State.endStep, h, decide_eq_true hd]
  rfl

/-- An undisturbed step of an instruction is its meaning, and the end of a single step. -/
theorem Undisturbed.step_exec {s t : State} {i : Instr} {n : Nat} (h : Undisturbed s) (hc : CodeFetchable s n)
    (hd : decode (codeBytes s) = .ok (i, n)) (hx : exec i s = .next t) : step s = .next t.endStep := by
  obtain ⟨bytes, hb, hi⟩ := hc.fetch hd
  rw [h.step_eq, hb, State.run, State.runBytes, hi]
  simp only [hx, mapNext]

/-! ## Resume (R562, R575) -/

/-- A write of resumereq to an active module with a halted core, and no halt request in it. -/
theorem State.hostAccess_resumereq {s : State} (hd : s.dbg = .halted) (hc : s.cfg.debugger = true)
    (ha : s.dm.dmactive = true) :
    s.hostAccess (.write 0x10 0x40000001) = .ok () (s.dmcontrolRequests 0x40000001).resume := by
  have idle : s.dmBusy = false := by
    rw [State.dmBusy, hd]
    rfl
  have halted : (s.dmcontrolRequests 0x40000001).dbg = .halted := hd
  have written : s.writeDmcontrol 0x40000001 = (s.dmcontrolRequests 0x40000001).resume := by
    rw [State.writeDmcontrol, ha]
    simp only [halted]
    rfl
  rw [State.hostAccess, if_neg (by rw [hc]; decide)]
  show s.hostWrite .dmcontrol 0x40000001 = _
  rw [State.hostWrite, ha, idle, State.dmWrite, written]
  rfl

/-- Settles O49: the causes of entry by priority, the two ends of a step, and the resume. -/
theorem haltStepAndResume : Obligations.HaltStepAndResume := by
  intro s
  refine ⟨fun hd hi hh ha => ?_, fun i n t hu hc hdec hx hd => ?_, ?_, step_halted, fun hd hc ha => ?_⟩
  · rw [step_halts hd hi hh ha, ← State.ebreakToDebug_eq]
    refine ⟨fun hf => ⟨_, rfl, ?_⟩, fun hf => ⟨fun he => ⟨_, rfl, ?_⟩, fun he i n hc hdec => ⟨_, rfl, ?_⟩⟩⟩
    · rw [State.halt_of_trigger hf]
      exact s.enterDebugByTrigger_enters
    · rw [State.halt_of_no_ebreak hf he]
      exact ⟨rfl, s.enterDebug_enters _ _⟩
    · rw [State.halt_of_code hf he hc hdec]
      exact ⟨rfl, s.enterDebug_enters _ _⟩
  · rw [hu.step_exec hc hdec hx]
    refine ⟨fun h2 => by rw [State.endStep_of_clear h2], fun h2 hf => ⟨_, rfl, ?_⟩, fun h2 hf => ⟨_, rfl, ?_⟩⟩
    · rw [State.endStep_of_step h2 hd, State.enterAfterStep, if_neg hf]
      exact ⟨rfl, t.enterDebug_enters _ _⟩
    · rw [State.endStep_of_step h2 hd, State.enterAfterStep, if_pos hf]
      exact t.enterDebugByTrigger_enters
  · simp only [State.sampledInterrupt, Bool.and_eq_true, Bool.not_eq_true']
  · exact ⟨_, State.hostAccess_resumereq hd hc ha, rfl, rfl, rfl, rfl, rfl⟩

end Sys2Proof.Machine

/-! SUPPORT. The access-register command of the debug module on the general registers (spec/62_systick_power_debug.md
R565, R567). -/

namespace Sys2Proof.Machine

/-! ## The fields of a command (R567) -/

/-- The fields of an access-register command on a general register without postexec: the size, whether it writes the
register, and whether the register number grows. -/
abbrev RegisterCommand (c : Word) (size : Option Width) (isWrite post : Bool) (r : Reg) : Prop :=
  c.extractLsb' 24 8 = 0 ∧ c.getLsbD 17 = true ∧ commandWidth c = size ∧ c.getLsbD 16 = isWrite ∧
    c.getLsbD 18 = false ∧ c.getLsbD 19 = post ∧ (c.extractLsb' 0 16).extractLsb' 12 4 ≠ 0 ∧
    (c.extractLsb' 0 16).extractLsb' 5 11 = 0x80 ∧ (c.extractLsb' 0 16).extractLsb' 0 5 = r

theorem registerCommand_read :
    ∀ r : Reg, RegisterCommand (0x00221000 + r.zeroExtend 32) (some .word) false false r := by decide

theorem registerCommand_write :
    ∀ r : Reg, RegisterCommand (0x00231000 + r.zeroExtend 32) (some .word) true false r := by decide

theorem registerCommand_read_next :
    ∀ r : Reg, RegisterCommand (0x00080000 + (0x00221000 + r.zeroExtend 32)) (some .word) false true r := by decide

theorem registerCommand_read_wide :
    ∀ r : Reg, RegisterCommand (0x00100000 + (0x00221000 + r.zeroExtend 32)) none false false r := by decide

theorem registerCommand_write_wide :
    ∀ r : Reg, RegisterCommand (0x00100000 + (0x00231000 + r.zeroExtend 32)) none true false r := by decide

/-- The register number grows in its own field. -/
theorem read_next_regno : ∀ r : Reg,
    (0x00080000 + (0x00221000 + r.zeroExtend 32) : Word).extractLsb' 16 16 ++
        ((0x00080000 + (0x00221000 + r.zeroExtend 32) : Word).extractLsb' 0 16 + 1) =
      0x00080000 + (0x00221000 + r.zeroExtend 32) + 1 := by decide

/-! ## What a command does -/

/-- The postincrement changes the command register and nothing else (R567). -/
theorem State.nextRegno_eq (s : State) : s.nextRegno = s.commanded (if s.dm.command.getLsbD 19
    then s.dm.command.extractLsb' 16 16 ++ (s.dm.command.extractLsb' 0 16 + 1) else s.dm.command) := by
  unfold State.nextRegno
  split <;> rfl

/-- The postincrement does not touch the bit of postexec. -/
theorem State.nextRegno_postexec {s : State} (h : s.dm.command.getLsbD 18 = false) : s.nextRegno.postexec = s.nextRegno := by
  refine State.postexec_of_clear ?_
  rw [State.nextRegno_eq, State.commanded_dm]
  split
  · rw [BitVec.getLsbD_append]
    exact (BitVec.getLsbD_extractLsb' ..).trans h
  · exact h

/-- The error of a command is recorded beside it. -/
theorem State.commanded_setCmderr {s : State} (h : s.dm.cmderr = 0) (c : Word) (e : BitVec 3) :
    (s.commanded c).setCmderr e = { s with dm := { s.dm with command := c, cmderr := e } } := by
  rw [State.setCmderr_of_none (s := s.commanded c) h]
  rfl

/-- A transfer that does not fail goes on with the value and the state it leaves. -/
theorem State.finishRegister_ok {α : Type} {s u : State} {r : Except (BitVec 3) (Res α)} {a : α}
    {k : α → State → State} (hr : r = .ok (.ok a u)) (h : (k a u).dm.command.getLsbD 18 = false) :
    s.finishRegister r k = (k a u).nextRegno := by
  rw [hr, State.finishRegister, State.nextRegno_postexec h]

section
variable {s : State} {c : Word} {size : Option Width} {isWrite post : Bool} {r : Reg}

/-- A read of a general register by its number. -/
theorem RegisterCommand.commandRead (hc : RegisterCommand c size isWrite post r) (u : State) :
    u.commandRead (c.extractLsb' 0 16) = .ok (.ok (u.readReg r) u) := by
  obtain ⟨-, -, -, -, -, -, noCsr, general, rfl⟩ := hc
  rw [State.commandRead, if_neg noCsr, if_pos general]

/-- A write of a general register by its number. -/
theorem RegisterCommand.commandWrite (hc : RegisterCommand c size isWrite post r) (u : State) (v : Word) :
    u.commandWrite (c.extractLsb' 0 16) v = .ok (.ok () (u.writeReg r v)) := by
  obtain ⟨-, -, -, -, -, -, noCsr, general, rfl⟩ := hc
  rw [State.commandWrite, if_neg noCsr, if_pos general]

/-- The copy of a register to data0. -/
theorem CommandReady.copies_to_data0 (h : CommandReady s) (hc : RegisterCommand c (some .word) false post r) :
    s.hostAccess (.write 0x17 c) = .ok () { s with dm := { s.dm with
      command := if post then c.extractLsb' 16 16 ++ (c.extractLsb' 0 16 + 1) else c
      data0 := s.readReg r } } := by
  have read := RegisterCommand.commandRead hc (s.commanded c)
  obtain ⟨kind, transfer, width, direction, noPostexec, postincrement, -, -, -⟩ := hc
  have copied : (s.commanded c).accessRegister =
      ((s.commanded c).setDm { (s.commanded c).dm with data0 := s.readReg r }).nextRegno := by
    simp only [State.accessRegister, State.commanded_dm, transfer, width, direction, Bool.true_eq_false,
      Bool.false_eq_true, if_false]
    exact State.finishRegister_ok read noPostexec
  rw [h.runs_register kind, copied, State.nextRegno_eq, ← postincrement]
  rfl

/-- The copy of data0 to a register. -/
theorem CommandReady.copies_to_register (h : CommandReady s) (hc : RegisterCommand c (some .word) true false r) :
    s.hostAccess (.write 0x17 c) = .ok () ((s.commanded c).writeReg r s.dm.data0) := by
  have written := RegisterCommand.commandWrite hc (s.commanded c) s.dm.data0
  obtain ⟨kind, transfer, width, direction, noPostexec, noPostincrement, -, -, -⟩ := hc
  have same : ((s.commanded c).writeReg r s.dm.data0).dm = (s.commanded c).dm := State.writeReg_dm ..
  have copied : (s.commanded c).accessRegister = ((s.commanded c).writeReg r s.dm.data0).nextRegno := by
    simp only [State.accessRegister, State.commanded_dm, transfer, width, direction, Bool.true_eq_false, if_true,
      if_false]
    exact State.finishRegister_ok written (by rw [same]; exact noPostexec)
  have still : ((s.commanded c).writeReg r s.dm.data0).nextRegno = (s.commanded c).writeReg r s.dm.data0 := by
    refine if_neg ?_
    rw [same, Bool.not_eq_true]
    exact noPostincrement
  rw [h.runs_register kind, copied, still]

/-- A size that is not supported is an error. -/
theorem CommandReady.register_size (h : CommandReady s) (hc : RegisterCommand c none isWrite post r) :
    s.hostAccess (.write 0x17 c) = .ok () { s with dm := { s.dm with command := c, cmderr := 2 } } := by
  obtain ⟨kind, transfer, width, -⟩ := hc
  have fails : (s.commanded c).accessRegister = (s.commanded c).setCmderr 2 := by
    simp only [State.accessRegister, State.commanded_dm, transfer, width, Bool.true_eq_false, if_false]
  rw [h.runs_register kind, fails, State.commanded_setCmderr h.noError]

end

/-- While the core runs no command executes: the error of a core that is not halted (R565). -/
theorem State.command_running {s : State} (hd : s.cfg.debugger = true) (ha : s.dm.dmactive = true)
    (he : s.dm.cmderr = 0) (hr : s.dbg = .running) (c : Word) :
    s.hostAccess (.write 0x17 c) = .ok () { s with dm := { s.dm with command := c, cmderr := 4 } } := by
  have idle : s.dmBusy = false := by
    rw [State.dmBusy, hr]
    rfl
  have refused : (s.commanded c).runCommand = .ok () ((s.commanded c).setCmderr 4) := by
    rw [State.runCommand, State.commanded_dm, if_neg (not_not.mpr he), State.commanded_dbg, hr]
    rfl
  have written : s.dmWrite .command c = (s.commanded c).runCommand := if_neg (not_not.mpr he)
  rw [State.hostAccess, if_neg (by rw [hd]; decide)]
  show s.hostWrite .command c = _
  rw [State.hostWrite, ha, idle, written, refused, State.commanded_setCmderr he]
  rfl

/-- Settles O50: each command is the transfer of its fields, or the error that its size or the running core gives. -/
theorem abstractRegisterAccess : Obligations.AbstractRegisterAccess := by
  intro s r hd ha he read write errs
  have ready (hh : s.dbg = .halted) : CommandReady s := ⟨hd, ha, he, hh⟩
  refine ⟨fun hh => (ready hh).copies_to_data0 (registerCommand_read r), fun hh => ?_, fun hh => ?_,
    fun hr => ⟨State.command_running hd ha he hr read, State.command_running hd ha he hr write⟩,
    fun hh => ⟨(ready hh).register_size (registerCommand_read_wide r),
      (ready hh).register_size (registerCommand_write_wide r)⟩⟩
  · refine ⟨_, (ready hh).copies_to_register (registerCommand_write r), fun q => ?_, ?_⟩
    · exact State.readReg_writeReg ..
    · rw [State.writeReg_eq]
      rfl
  · rw [(ready hh).copies_to_data0 (registerCommand_read_next r), if_pos rfl, read_next_regno]

end Sys2Proof.Machine
